-- ==== Sys2Proof/Word.lean ====
section
/-! DEFINITION. Word types and the small closed types of ring_buffer_manager: bytes, samples, command words, stereo
frames, the two address spaces, the two sample encodings and the four playback modes. -/

namespace Sys2Proof

/-- One arena byte (20_memory.md R40). -/
abbrev Byte := BitVec 8

/-- An `S16` sample, or a 16-bit register (00_scope.md R12). -/
abbrev Half := BitVec 16

/-- A 32-bit register or response word. -/
abbrev Word := BitVec 32

/-- A 64-bit command word (30_encoding.md R62). -/
abbrev Cmd := BitVec 64

/-- One stereo sample pair, each an `S16` (00_scope.md glossary "Frame"). -/
structure Frame where
  /-- channel 0, left -/
  l : Half
  /-- channel 1, right -/
  r : Half
deriving DecidableEq, Repr, Inhabited

/-- The all-zero frame. -/
def Frame.zero : Frame := ⟨0, 0⟩

/-- The sample of a channel. -/
def Frame.channel (f : Frame) (c : Fin 2) : Half := if c = 0 then f.l else f.r

/-- The two arenas (20_memory.md R40): space 0 is `LARGE`, space 1 is `SMALL`. -/
inductive Space where
  | large
  | small
deriving DecidableEq, Repr, Inhabited

/-- The number of an address space (20_memory.md R40). -/
def Space.code : Space → BitVec 1
  | .large => 0
  | .small => 1

/-- The two sample encodings (10_state.md R31): `ENC` 0 is 16-bit linear, 1 is 8-bit mu-law. -/
inductive SampleFormat where
  | linear16
  | mulaw8
deriving DecidableEq, Repr, Inhabited

/-- The `ENC` bit of an encoding (10_state.md R31). -/
def SampleFormat.code : SampleFormat → BitVec 1
  | .linear16 => 0
  | .mulaw8 => 1

/-- The four playback modes (10_state.md R20). -/
inductive Mode where
  | granular
  | stretch
  | loopingDelay
  | spectral
deriving DecidableEq, Repr, Inhabited

/-- The number of a playback mode (10_state.md R20). -/
def Mode.code : Mode → Nat
  | .granular => 0
  | .stretch => 1
  | .loopingDelay => 2
  | .spectral => 3

/-- The playback mode of a number, if there is one (10_state.md R20). -/
def Mode.ofNat? : Nat → Option Mode
  | 0 => some .granular
  | 1 => some .stretch
  | 2 => some .loopingDelay
  | 3 => some .spectral
  | _ => none

/-- The bit of a flag. -/
def bit (b : Bool) : BitVec 1 := if b then 1 else 0

end Sys2Proof
end

