-- ==== Sys2Proof/Config.lean ====
section
/-! DEFINITION. The implementation parameters of 00_scope.md R8, the bundles an open kernel is given (45_wsola.md R123),
and the open values of the spec as constants with no body: the six open kernel families (45_wsola.md R122 and R124,
46_spectral.md R131, 48_sequencer.md R172 and R173) and the unspecified arena bytes (20_memory.md R42). -/

namespace Sys2Proof

/-! ## Parameters (00_scope.md R8) -/

/-- The largest `BLOCK_SIZE` an instance can have. -/
abbrev Config.maxBlockSize : Nat := 256

/-- The OPEN parameters that one instance of the hardware fixes (00_scope.md R8, 93_implementation_defined.md U5 and U7). The
machine is a function of them: they stand in the state, where no step changes them (log entries 1 and 2). -/
structure HwParams where
  /-- half of `BLOCK_SIZE`, less one: `BLOCK_SIZE` is even, 2 to 256 -/
  halfBlock : Fin 128
  /-- `WS_REQ[0]` -/
  wsReqGranular : Nat
  /-- `WS_REQ[1]` -/
  wsReqStretch : Nat
  /-- `WS_REQ[2]` -/
  wsReqLooping : Nat
  /-- `WS_REQ[3]` -/
  wsReqSpectral : Nat
  /-- `WS_CAND_PER_PREPARE` -/
  wsCandPerPrepare : Nat
deriving DecidableEq, Repr, Inhabited

/-- `BLOCK_SIZE`: frames per `PROCESS`. -/
def HwParams.blockSize (hw : HwParams) : Nat := 2 * (hw.halfBlock.val + 1)

/-- `WS_REQ[m]`: workspace bytes mode `m` needs. -/
def HwParams.wsReq (hw : HwParams) : Mode → Nat
  | .granular => hw.wsReqGranular
  | .stretch => hw.wsReqStretch
  | .loopingDelay => hw.wsReqLooping
  | .spectral => hw.wsReqSpectral

/-- The values this spec takes: `BLOCK_SIZE` 32, `WS_REQ` 0 for every mode, `WS_CAND_PER_PREPARE` 8. -/
def HwParams.standard : HwParams := ⟨15, 0, 0, 0, 0, 8⟩

/-- `WS_CAND_MAX`: largest candidate count of one search. -/
abbrev Config.wsCandMax : Nat := 65535

/-- `TAIL`: samples in a tail array. -/
abbrev Config.tail : Nat := 8

/-- `FADE_LEN`: write-fade length in samples. -/
def Config.fadeLen : Nat := 64

/-- `FADE_SHIFT`: log2 of `FADE_LEN`. -/
def Config.fadeShift : Nat := 6

/-- `N_SVF`: filter instances. -/
abbrev Config.nSvf : Nat := 8

/-- `SVF_C1`, first tangent polynomial constant. -/
def Config.svfC1 : Nat := 205887

/-- `SVF_C3`, second tangent polynomial constant. -/
def Config.svfC3 : Nat := 677342

/-- `SVF_C5`, third tangent polynomial constant. -/
def Config.svfC5 : Nat := 2674041

/-- `F_MAX`: largest filter frequency register value. -/
def Config.fMax : Nat := 32702

/-- `Q_MIN`: smallest filter Q register value. -/
def Config.qMin : Nat := 32768

/-- `Q_MAX`: largest filter Q register value. -/
def Config.qMax : Nat := 16777215

/-- `LIM_KNEE`: soft limiter knee. -/
def Config.limKnee : Int := 49152

/-- `LIM_A`: soft limiter cubic coefficient. -/
def Config.limA : Int := 4854

/-- `WET_GAIN`: wet headroom gain 1.2 in Q15. -/
def Config.wetGain : Int := 39322

/-- `FRZ_DIV`: freeze follower divisor. -/
def Config.frzDiv : Int := 16

/-- `FB_HP_HZ`: feedback high-pass cutoff in Hz. -/
def Config.fbHpHz : Nat := 20

/-- `FID_F`: low-fidelity anti-alias filter frequency. -/
def Config.fidF : Nat := 12288

/-- `FID_Q`: low-fidelity anti-alias filter Q. -/
def Config.fidQ : Nat := 46341

/-- `MAX_GRAINS`: grain slots. -/
abbrev Config.maxGrains : Nat := 16

/-- `GR_MAX_OVERLAP`: largest grain overlap. -/
def Config.grMaxOverlap : Nat := 8

/-- `GRAIN_MIN_LEN`: shortest grain that is spawned. -/
def Config.grainMinLen : Int := 16

/-- `GR_SEED`: grain generator value after engine init. -/
def Config.grSeed : BitVec 32 := 1

/-- `SEQ_N_MIN`: smallest ring capacity `PREPARE` accepts. -/
def Config.seqNMin : Nat := 1024

/-! ## What an open kernel is given (45_wsola.md R123) -/

/-- The nine derived-parameter registers `DRV_*` (10_state.md R30). -/
structure Derived where
  overlap : BitVec 19
  shape : Half
  det : Bool
  diff : Half
  quant : Half
  refresh : Half
  warp : Half
  phrand : Half
  reverb : Half
deriving DecidableEq, Repr, Inhabited

/-- `KARGS`, the init bundle. -/
structure KArgs where
  intSr : Word
  tblSr : Word
  channels : Nat
  lofi : Bool
  wsSize : BitVec 24
  blockSize : Nat
deriving DecidableEq, Repr, Inhabited

/-- `KPARAMS`, the parameter bundle. -/
structure KParams where
  p : Vector Half 10
  drv : Derived
deriving DecidableEq, Repr, Inhabited

/-- The read-only view of one ring buffer in `RBVIEW`. `load a` is the decoded sample `a` for `a < n`, and 0 beyond, where
the spec gives a kernel nothing (log entry 15). A view is an argument of a kernel, never a part of the state. -/
structure RbView where
  bound : Bool
  n : BitVec 24
  wcur : BitVec 24
  tail : Vector Half 8
  load : Nat → Half
deriving Inhabited

/-- `RBVIEW`: the views of `RB[0]` and `RB[1]`. -/
structure RbViews where
  rb0 : RbView
  rb1 : RbView
deriving Inhabited

/-- The abstract state value of one open kernel family (10_state.md R36). The set it ranges over is OPEN; a number stands
for an element of it. DESIGN CHOICE (log entry 4). -/
structure KernelState where
  value : Nat
deriving DecidableEq, Repr, Inhabited

/-- What a `LOOP_PLAY` or `WSOLA_PLAY` call gets as the outcome of the last finished search: candidate index and score. -/
structure SearchResult where
  offset : Half
  score : Word
deriving DecidableEq, Repr, Inhabited

/-! ## The open kernels: constants with no body (log entry 3). Each is total, deterministic, fault-free and confined by
its type (R122). A block result has exactly the length its rule gives; a posted count `c` is `c.val + 1`, from 1 to
`WS_CAND_MAX` (log entry 15). -/

/-- `WSOLA_INIT` (45_wsola.md R124). -/
opaque Config.wsolaInit : KArgs → KernelState

/-- `WSOLA_PLAY` (45_wsola.md R124): new state, internal block, posted search. -/
opaque Config.wsolaPlay : KernelState → RbViews → KParams → (ni : Nat) → Option SearchResult →
  KernelState × Vector Frame ni × Option (Fin Config.wsCandMax)

/-- `WSOLA_SIMILARITY` (45_wsola.md R124): the score of one candidate, an `S32`. -/
opaque Config.wsolaSimilarity : KernelState → RbViews → Half → Word

/-- `PV_INIT` (46_spectral.md R131). -/
opaque Config.pvInit : KArgs → KernelState

/-- `PV_PLAY` (46_spectral.md R131). -/
opaque Config.pvPlay : KernelState → KParams → List Frame → (ni : Nat) → KernelState × Vector Frame ni

/-- `PV_BUFFER` (46_spectral.md R131). -/
opaque Config.pvBuffer : KernelState → KParams → KernelState

/-- `LOOP_INIT` (48_sequencer.md R172). -/
opaque Config.loopInit : KArgs → KernelState

/-- `LOOP_PLAY` (48_sequencer.md R172): new state, internal block, the synchronized flag. -/
opaque Config.loopPlay : KernelState → RbViews → KParams → (ni : Nat) → KernelState × Vector Frame ni × Bool

/-- `DIFF_INIT` (48_sequencer.md R173). -/
opaque Config.diffInit : KArgs → KernelState

/-- `DIFF_PROCESS` (48_sequencer.md R173): state, amount, block. -/
opaque Config.diffProcess : KernelState → Half → (n : Nat) → Vector Frame n → KernelState × Vector Frame n

/-- `PS_INIT` (48_sequencer.md R173). -/
opaque Config.psInit : KArgs → KernelState

/-- `PS_PROCESS` (48_sequencer.md R173): state, ratio, size, block. -/
opaque Config.psProcess : KernelState → Nat → Half → (n : Nat) → Vector Frame n → KernelState × Vector Frame n

/-- `REV_INIT` (48_sequencer.md R173). -/
opaque Config.revInit : KArgs → KernelState

/-- `REV_PROCESS` (48_sequencer.md R173): state, amount, feedback, block. -/
opaque Config.revProcess : KernelState → Half → Half → (n : Nat) → Vector Frame n → KernelState × Vector Frame n

/-! ## Unspecified arena bytes -/

/-- The value of the `k`-th unconstrained `PEEK` response (20_memory.md R42; log entry 6). -/
opaque Config.freeByte : Nat → Byte

/-- What a ring buffer load would find in an unspecified byte. No run reaches such a load (41_ring_buffer.md R95; log
entry 7). -/
opaque Config.unknownByte : Space → Nat → Byte

end Sys2Proof
end

