-- ==== Sys2Proof/Syntax.lean ====
section
/-! DEFINITION. The 24 commands of 30_encoding.md R65, one constructor each, with the operands of R64. Every operand has
exactly the width of its field (or is the two-valued type its one bit selects), so no term lacks an encoding. -/

namespace Sys2Proof

/-- A command. Operand order is that of the assembler syntax (30_encoding.md R68). -/
inductive Instr where
  | nop
  | csrr (addr : BitVec 16)
  | arena (which : Space) (size : BitVec 32)
  | tblinit (sampleRate : BitVec 32)
  | init (sampleRate : BitVec 32)
  | pset (index : BitVec 8) (value : BitVec 16)
  | setmode (mode : BitVec 8)
  | setqual (quality : BitVec 8)
  | setsil (flag : Bool)
  | setbyp (flag : Bool)
  | rstbuf
  | prepare
  | process (size : BitVec 16)
  | framew (index left right : BitVec 16)
  | framer (index : BitVec 16)
  | peek (space : Space) (addr : BitVec 32)
  | rbinit (inst : Fin 2) (space : Space) (enc : SampleFormat) (base size : BitVec 24)
  | rbwf (inst : Fin 2) (allow : Bool) (count stride src : BitVec 16)
  | rbrd (inst : Fin 2) (offset : BitVec 32) (frac : BitVec 16)
  | svfrst (inst : Fin 8)
  | svfset (inst : Fin 8) (f : BitVec 16) (q : BitVec 32)
  | svfstep (inst : Fin 8) (x : BitVec 32)
  | lim (x : BitVec 32)
  | xfade (dw dry wet : BitVec 16)
deriving DecidableEq, Repr

end Sys2Proof
end

