-- ==== Sys2Proof/Decode.lean ====
section
/-! DEFINITION. The decoder of 30_encoding.md R62 to R66 (total, refusing by name) and the encoder written from the same
formats. A word selects a command by its opcode when every bit its format does not use is 0 (R63, R181). -/

namespace Sys2Proof

/-- Why a word is not a command (30_encoding.md R66). Both cases raise `ILLEGAL_CMD` with the opcode as info. -/
inductive DecodeError where
  /-- the opcode is reserved -/
  | reservedOpcode (opc : BitVec 8)
  /-- the opcode is defined and a bit its format does not use is 1 -/
  | unusedBitSet (opc : BitVec 8)
deriving DecidableEq, Repr

/-! ## Fields (30_encoding.md R62) -/

/-- `OPC`, bits 63:56. -/
def opcField (w : Cmd) : BitVec 8 := w.extractLsb' 56 8

/-- `A`, bits 55:48. -/
def aField (w : Cmd) : BitVec 8 := w.extractLsb' 48 8

/-- `B`, bits 47:32. -/
def bField (w : Cmd) : BitVec 16 := w.extractLsb' 32 16

/-- `C`, bits 31:0. -/
def cField (w : Cmd) : BitVec 32 := w.extractLsb' 0 32

/-- `C[31:16]`. -/
def cHiField (w : Cmd) : BitVec 16 := w.extractLsb' 16 16

/-- `C[15:0]`. -/
def cLoField (w : Cmd) : BitVec 16 := w.extractLsb' 0 16

/-- `BASE` of format `D`, bits 47:24. -/
def baseField (w : Cmd) : BitVec 24 := w.extractLsb' 24 24

/-- `SIZE` of format `D`, bits 23:0. -/
def sizeField (w : Cmd) : BitVec 24 := w.extractLsb' 0 24

/-- `A[0]` as a flag. -/
def aFlag0 (w : Cmd) : Bool := w.getLsbD 48

/-- `A[1]` as a flag. -/
def aFlag1 (w : Cmd) : Bool := w.getLsbD 49

/-- `A[2]` as a flag. -/
def aFlag2 (w : Cmd) : Bool := w.getLsbD 50

/-- A flag as an arena (20_memory.md R40). -/
def spaceOf (b : Bool) : Space := if b then .small else .large

/-- A flag as a sample encoding (10_state.md R31). -/
def formatOf (b : Bool) : SampleFormat := if b then .mulaw8 else .linear16

/-- A flag as a ring buffer instance (30_encoding.md R64). -/
def ringOf (b : Bool) : Fin 2 := if b then 1 else 0

/-- `A[2:0]` as a filter instance (30_encoding.md R64). -/
def filterOf (w : Cmd) : Fin 8 := (w.extractLsb' 48 3).toFin

/-- The command of a word whose opcode is known, if the bits its format does not use are 0 (30_encoding.md R63). -/
def ifUnusedZero (ok : Bool) (w : Cmd) (i : Instr) : Except DecodeError Instr :=
  if ok then .ok i else .error (.unusedBitSet (opcField w))

/-- The command a word selects (30_encoding.md R65), or why there is none (R66). -/
def decode (w : Cmd) : Except DecodeError Instr :=
  match opcField w with
  | 0x00#8 => ifUnusedZero (aField w = 0 && bField w = 0 && cField w = 0) w .nop
  | 0x01#8 => ifUnusedZero (aField w = 0 && cField w = 0) w (.csrr (bField w))
  | 0x02#8 => ifUnusedZero ((aField w).toNat < 2 && bField w = 0) w (.arena (spaceOf (aFlag0 w)) (cField w))
  | 0x03#8 => ifUnusedZero (aField w = 0 && bField w = 0) w (.tblinit (cField w))
  | 0x04#8 => ifUnusedZero (aField w = 0 && bField w = 0) w (.init (cField w))
  | 0x05#8 => ifUnusedZero (cField w = 0) w (.pset (aField w) (bField w))
  | 0x06#8 => ifUnusedZero (bField w = 0 && cField w = 0) w (.setmode (aField w))
  | 0x07#8 => ifUnusedZero (bField w = 0 && cField w = 0) w (.setqual (aField w))
  | 0x08#8 => ifUnusedZero ((aField w).toNat < 2 && bField w = 0 && cField w = 0) w (.setsil (aFlag0 w))
  | 0x09#8 => ifUnusedZero ((aField w).toNat < 2 && bField w = 0 && cField w = 0) w (.setbyp (aFlag0 w))
  | 0x0A#8 => ifUnusedZero (aField w = 0 && bField w = 0 && cField w = 0) w .rstbuf
  | 0x0B#8 => ifUnusedZero (aField w = 0 && bField w = 0 && cField w = 0) w .prepare
  | 0x0C#8 => ifUnusedZero (aField w = 0 && cField w = 0) w (.process (bField w))
  | 0x0D#8 => ifUnusedZero (aField w = 0) w (.framew (bField w) (cLoField w) (cHiField w))
  | 0x0E#8 => ifUnusedZero (aField w = 0 && cField w = 0) w (.framer (bField w))
  | 0x0F#8 => ifUnusedZero ((aField w).toNat < 2 && bField w = 0) w (.peek (spaceOf (aFlag0 w)) (cField w))
  | 0x10#8 => ifUnusedZero ((aField w).toNat < 8) w
      (.rbinit (ringOf (aFlag0 w)) (spaceOf (aFlag1 w)) (formatOf (aFlag2 w)) (baseField w) (sizeField w))
  | 0x11#8 => ifUnusedZero ((aField w).toNat < 4) w
      (.rbwf (ringOf (aFlag0 w)) (aFlag1 w) (bField w) (cHiField w) (cLoField w))
  | 0x12#8 => ifUnusedZero ((aField w).toNat < 2) w (.rbrd (ringOf (aFlag0 w)) (cField w) (bField w))
  | 0x18#8 => ifUnusedZero ((aField w).toNat < 8 && bField w = 0 && cField w = 0) w (.svfrst (filterOf w))
  | 0x19#8 => ifUnusedZero ((aField w).toNat < 8) w (.svfset (filterOf w) (bField w) (cField w))
  | 0x1A#8 => ifUnusedZero ((aField w).toNat < 8 && bField w = 0) w (.svfstep (filterOf w) (cField w))
  | 0x1C#8 => ifUnusedZero (aField w = 0 && bField w = 0) w (.lim (cField w))
  | 0x1D#8 => ifUnusedZero (aField w = 0) w (.xfade (bField w) (cLoField w) (cHiField w))
  | opc => .error (.reservedOpcode opc)

/-- The command of an opcode-table word of `nbits` bits; the table numbers bits from the least significant bit of the one
64-bit word. -/
def decodeTableWord (nbits w : Nat) : Option Instr :=
  match decode (BitVec.ofNat 64 (w % 2 ^ nbits)) with
  | .ok i => some i
  | .error _ => none

/-! ## The encoder -/

/-- A word of its four fields (30_encoding.md R62). -/
def packWord (opc a : BitVec 8) (b : BitVec 16) (c : BitVec 32) : Cmd := opc ++ a ++ b ++ c

/-- A word of format `D` (30_encoding.md R62). -/
def packWordD (opc a : BitVec 8) (base size : BitVec 24) : Cmd := opc ++ a ++ base ++ size

/-- The `A` field of up to three flags, `A[2]`, `A[1]`, `A[0]`. -/
def aFlags (f2 f1 f0 : BitVec 1) : BitVec 8 := 0#5 ++ f2 ++ f1 ++ f0

/-- The selector bit of a ring buffer instance. -/
def ringBit (i : Fin 2) : BitVec 1 := BitVec.ofFin i

/-- The `A` field of a filter instance. -/
def filterBits (i : Fin 8) : BitVec 8 := 0#5 ++ (BitVec.ofFin i : BitVec 3)

/-- The word of a command (30_encoding.md R64, R65, R68). -/
def encode : Instr → Cmd
  | .nop => packWord 0x00 0 0 0
  | .csrr addr => packWord 0x01 0 addr 0
  | .arena which size => packWord 0x02 (aFlags 0 0 which.code) 0 size
  | .tblinit sampleRate => packWord 0x03 0 0 sampleRate
  | .init sampleRate => packWord 0x04 0 0 sampleRate
  | .pset index value => packWord 0x05 index value 0
  | .setmode mode => packWord 0x06 mode 0 0
  | .setqual quality => packWord 0x07 quality 0 0
  | .setsil flag => packWord 0x08 (aFlags 0 0 (bit flag)) 0 0
  | .setbyp flag => packWord 0x09 (aFlags 0 0 (bit flag)) 0 0
  | .rstbuf => packWord 0x0A 0 0 0
  | .prepare => packWord 0x0B 0 0 0
  | .process size => packWord 0x0C 0 size 0
  | .framew index left right => packWord 0x0D 0 index (right ++ left)
  | .framer index => packWord 0x0E 0 index 0
  | .peek space addr => packWord 0x0F (aFlags 0 0 space.code) 0 addr
  | .rbinit inst space enc base size =>
      packWordD 0x10 (aFlags enc.code space.code (ringBit inst)) base size
  | .rbwf inst allow count stride src =>
      packWord 0x11 (aFlags 0 (bit allow) (ringBit inst)) count (stride ++ src)
  | .rbrd inst offset frac => packWord 0x12 (aFlags 0 0 (ringBit inst)) frac offset
  | .svfrst inst => packWord 0x18 (filterBits inst) 0 0
  | .svfset inst f q => packWord 0x19 (filterBits inst) f q
  | .svfstep inst x => packWord 0x1A (filterBits inst) 0 x
  | .lim x => packWord 0x1C 0 0 x
  | .xfade dw dry wet => packWord 0x1D 0 dw (wet ++ dry)

end Sys2Proof
end

