-- ==== Sys2Proof/Machine/Arith.lean ====
section
/-! DEFINITION. The arithmetic primitives of 00_scope.md R11 over the exact integers. A right shift of an integer is `>>>`,
which is the floor of the quotient by a power of two (R11); a register value is read with `toInt` or `toNat` and written
with the narrowing functions here. -/

namespace Sys2Proof.Machine

/-- `clamp(v, lo, hi)` (00_scope.md R11). -/
def clamp (v lo hi : Int) : Int := min (max v lo) hi

/-- `sat16` (00_scope.md R11). -/
def sat16 (v : Int) : Int := clamp v (-32768) 32767

/-- `sat32` (00_scope.md R11). -/
def sat32 (v : Int) : Int := clamp v (-2147483648) 2147483647

/-- `sat40` (00_scope.md R11). -/
def sat40 (v : Int) : Int := clamp v (-549755813888) 549755813887

/-- `clamp` of naturals. -/
def clampNat (v lo hi : Nat) : Nat := min (max v lo) hi

/-- An integer that fits an `S16`, as a sample. -/
def toHalf (v : Int) : Half := BitVec.ofInt 16 v

/-- `sext_32` of an integer that fits 32 bits signed (00_scope.md R11). -/
def toWord (v : Int) : Word := BitVec.ofInt 32 v

/-- `zext_32` of a register (30_encoding.md R61). -/
def zextWord {n : Nat} (v : BitVec n) : Word := v.setWidth 32

/-- A narrower signed register read sign-extended to 32 bits (10_state.md R17). -/
def sextWord {n : Nat} (v : BitVec n) : Word := v.signExtend 32

end Sys2Proof.Machine
end

