-- ==== Sys2Proof/Machine/State.lean ====
section
/-! DEFINITION. The state of ring_buffer_manager as plain data (10_state.md R15), the reasons a step can stop, and the state
after hardware reset (70_reset_and_hazards.md R192). A register the spec computes on read (`STATUS.FROZEN`, `INT_SR`,
`RESOLUTION`, `NUM_CHANNELS`, `GR_ACTIVE_MASK`) has no field. -/

namespace Sys2Proof.Machine

/-- The bytes of one arena. `known` is the set of specified bytes (20_memory.md R42) as address ranges `[lo, hi)`, rising,
disjoint and not adjacent; `cells` lists the specified bytes that are not 0, addresses strictly rising. An unlisted address
reads as 0 inside `known` (it was zero-filled, R84) and as no value elsewhere (log entry 12). -/
structure Memory where
  known : List (Nat × Nat)
  cells : List Host.Cell
deriving DecidableEq, Repr

/-- A memory in which no byte is specified (20_memory.md R41). -/
def Memory.unspecified : Memory := ⟨[], []⟩

/-- One arena: `STATUS.ARENAi_DECL`, its size register (10_state.md R24) and its bytes. -/
structure Arena where
  declared : Bool
  size : BitVec 24
  mem : Memory
deriving DecidableEq, Repr

/-- The register set of one ring buffer instance (10_state.md R31). -/
structure Ring where
  bound : Bool
  enc : SampleFormat
  space : Space
  base : BitVec 24
  size : BitVec 24
  n : BitVec 24
  wcur : BitVec 24
  fade : BitVec 7
  tail : Vector Half Config.tail
deriving DecidableEq, Repr

/-- An unbound instance: every register of the set is 0 (10_state.md R32). -/
def Ring.unbound : Ring := ⟨false, .linear16, .large, 0, 0, 0, 0, 0, Vector.replicate Config.tail 0⟩

/-- The register set of one filter instance (10_state.md R33). -/
structure Svf where
  g : BitVec 19
  r : BitVec 18
  h : BitVec 17
  s1 : BitVec 40
  s2 : BitVec 40
  lp : BitVec 32
  hp : BitVec 32
  bp : BitVec 32
  notch : BitVec 32
  f : BitVec 16
  q : BitVec 24
deriving DecidableEq, Repr

/-- A filter instance after hardware reset: the coefficients of `f = 0`, `q = 1.0` (42_svf.md R97). -/
def Svf.atReset : Svf := ⟨0, 65536, 65536, 0, 0, 0, 0, 0, 0, 0, 65536⟩

/-- One grain slot (10_state.md R34). -/
structure GrainSlot where
  active : Bool
  startHi : BitVec 24
  startLo : BitVec 16
  phase : BitVec 16
  len : BitVec 16
  ratio : BitVec 21
  gainL : BitVec 16
  gainR : BitVec 16
deriving DecidableEq, Repr, Inhabited

/-- A cleared grain slot. -/
def GrainSlot.clear : GrainSlot := ⟨false, 0, 0, 0, 0, 0, 0, 0⟩

/-- The grain engine registers (10_state.md R34). -/
structure GrainPool where
  prng : BitVec 32
  spawnCtr : BitVec 32
  slots : Vector GrainSlot Config.maxGrains
deriving DecidableEq, Repr

/-- The pool a grain engine init leaves (44_grain.md R113). -/
def GrainPool.fresh : GrainPool := ⟨Config.grSeed, 0, Vector.replicate Config.maxGrains GrainSlot.clear⟩

/-- The WSOLA search registers (10_state.md R35). -/
structure Search where
  pending : Bool
  done : Bool
  candIdx : BitVec 16
  candCount : BitVec 16
  bestScore : BitVec 32
  bestOffset : BitVec 16
deriving DecidableEq, Repr

/-- The search registers an engine init leaves (45_wsola.md R125). -/
def Search.idle : Search := ⟨false, false, 0, 0, 0, 0⟩

/-- The open-kernel states (10_state.md R36). -/
structure Kernels where
  wsola : KernelState
  pv : KernelState
  loop : KernelState
  diff : KernelState
  ps : KernelState
  rev : KernelState
deriving DecidableEq, Repr

/-- Every kernel state at its family's init value (10_state.md R36, 47_host_commands.md R139). -/
def Kernels.initAll (k : KArgs) : Kernels :=
  ⟨Config.wsolaInit k, Config.pvInit k, Config.loopInit k, Config.diffInit k, Config.psInit k, Config.revInit k⟩

/-- What the host can do to the block at its input ports (30_encoding.md R60): present a command word on `CMD`, or assert
`RESET`, an event in the same total order (70_reset_and_hazards.md R193). -/
inductive HostEvent where
  | command (w : Cmd)
  | reset
deriving DecidableEq, Repr

/-- The complete state of the block (10_state.md R15), the ports' two fields (30_encoding.md R60), the parameters of the
instance (00_scope.md R8) and the model's own counter of free values. A frame buffer is the list of its `BLOCK_SIZE` frames. -/
structure State where
  /-- the parameters of the instance, which no step changes (log entries 1 and 2) -/
  hw : HwParams
  /-- `STATUS.TABLES_VALID` -/
  tablesValid : Bool
  /-- `STATUS.INITED` -/
  inited : Bool
  /-- `STATUS.RESET_PENDING` -/
  resetPending : Bool
  /-- `STATUS.FAULT` and the `FAULT` port -/
  fault : Bool
  /-- `STATUS.BYPASS` -/
  bypass : Bool
  /-- `STATUS.SILENCE` -/
  silence : Bool
  /-- `STATUS.LOOP_SYNC` -/
  loopSync : Bool
  /-- `MODE` -/
  mode : Mode
  /-- `PREV_MODE`; `none` is the value 4, Uninitialized (log entry 19) -/
  prevMode : Option Mode
  /-- `QUALITY`: bit 0 mono, bit 1 low fidelity (10_state.md R22) -/
  quality : BitVec 2
  /-- `SR` -/
  sr : BitVec 32
  /-- `TBL_SR` -/
  tblSr : BitVec 32
  /-- the arena `LARGE`: `LARGE_SIZE`, `STATUS.ARENA0_DECL`, its bytes -/
  large : Arena
  /-- the arena `SMALL`: `SMALL_SIZE`, `STATUS.ARENA1_DECL`, its bytes -/
  small : Arena
  /-- `WS_SPACE` -/
  wsSpace : Space
  /-- `WS_BASE` -/
  wsBase : BitVec 24
  /-- `WS_SIZE` -/
  wsSize : BitVec 24
  /-- `CMDCNT` -/
  cmdcnt : BitVec 32
  /-- `FAULT_CAUSE` -/
  faultCause : BitVec 3
  /-- `FAULT_INFO` -/
  faultInfo : BitVec 32
  /-- `FAULT_CMD_LO` -/
  faultCmdLo : BitVec 32
  /-- `FAULT_CMD_HI` -/
  faultCmdHi : BitVec 32
  /-- `P[0..9]` -/
  p : Vector Half 10
  /-- `DRV_*` -/
  drv : Derived
  /-- `RB[0..1]` -/
  rings : Vector Ring 2
  /-- `SVF[0..7]` -/
  svfs : Vector Svf Config.nSvf
  /-- the grain engine -/
  grains : GrainPool
  /-- `WS_CTRL` to `WS_BEST_OFFSET` -/
  search : Search
  /-- `KS_*` -/
  kernels : Kernels
  /-- `FREEZE_LP` -/
  freezeLp : Half
  /-- `DW_PREV` -/
  dwPrev : Half
  /-- `UP_PREV[0..1]` -/
  upPrev : Frame
  /-- `FBBUF` -/
  fbbuf : List Frame
  /-- `INBUF` -/
  inbuf : List Frame
  /-- `OUTBUF` -/
  outbuf : List Frame
  /-- the host's events not yet consumed, the next one first (log entry 8) -/
  inputs : List HostEvent
  /-- the response word of the command run last, if it had one (log entry 9) -/
  resp : Option (BitVec 32)
  /-- the model's own: how many unconstrained `PEEK` values were drawn (log entry 6) -/
  draws : Nat
deriving DecidableEq, Repr

/-- The model has no way to stop a step with a fault: the spec's five fault causes are taken as next states
(60_exceptions.md R186) and no behaviour of the spec is undefined (93_implementation_defined.md). So no constructor. -/
inductive Fault where
deriving DecidableEq, Repr

/-- Why a step refuses an instruction. -/
inductive Refusal where
  /-- Raised by an arm of `exec` whose instruction has no meaning in the model yet. Safe: the run stops by name. -/
  | notModelled (mnemonic : String)
deriving DecidableEq, Repr

/-- The outcome of a step of this machine. -/
abbrev Result := Host.Outcome State Fault Refusal

/-- `BLOCK_SIZE` of the instance (10_state.md R18). -/
def State.blockSize (s : State) : Nat := s.hw.blockSize

/-- `KARGS` right after hardware reset: `SR = 0`, `WS_SIZE = 0`, quality 0 (10_state.md R36; log entry 5). -/
def resetKArgs (hw : HwParams) : KArgs := ⟨0, 0, 2, false, 0, hw.blockSize⟩

/-- An arena that does not exist (70_reset_and_hazards.md R192). -/
def Arena.undeclared : Arena := ⟨false, 0, Memory.unspecified⟩

/-- The state of an instance after hardware reset (70_reset_and_hazards.md R192). `inputs`, `resp` and `draws` are the model's
choice (log entries 6, 8, 9). -/
def State.resetFor (hw : HwParams) : State where
  hw := hw
  tablesValid := false
  inited := false
  resetPending := false
  fault := false
  bypass := false
  silence := false
  loopSync := false
  mode := .granular
  prevMode := none
  quality := 0
  sr := 0
  tblSr := 0
  large := Arena.undeclared
  small := Arena.undeclared
  wsSpace := .large
  wsBase := 0
  wsSize := 0
  cmdcnt := 0
  faultCause := 0
  faultInfo := 0
  faultCmdLo := 0
  faultCmdHi := 0
  p := Vector.replicate 10 0
  drv := ⟨0, 0, false, 0, 0, 0, 0, 0, 0⟩
  rings := Vector.replicate 2 Ring.unbound
  svfs := Vector.replicate Config.nSvf Svf.atReset
  grains := GrainPool.fresh
  search := Search.idle
  kernels := Kernels.initAll (resetKArgs hw)
  freezeLp := 0
  dwPrev := 0
  upPrev := Frame.zero
  fbbuf := List.replicate hw.blockSize Frame.zero
  inbuf := List.replicate hw.blockSize Frame.zero
  outbuf := List.replicate hw.blockSize Frame.zero
  inputs := []
  resp := none
  draws := 0

/-- The state after hardware reset of the instance with the values this spec takes (00_scope.md R8; log entries 1 and 2). -/
def State.reset : State := State.resetFor HwParams.standard

end Sys2Proof.Machine
end

