-- ==== Sys2Proof/Machine/Ops.lean ====
section
/-! DEFINITION. The shared operations of the block: arena bytes (20_memory.md), what a command's end does (10_state.md R16,
30_encoding.md R61), taking a fault and the faulted state (60_exceptions.md R186, R187), hardware reset (70_reset_and_hazards.md
R192), and the host's ports (30_encoding.md R60). -/

namespace Sys2Proof.Machine

/-! ## Sets of addresses as ranges -/

/-- Membership in a set of ranges `[lo, hi)`. -/
def rangesMem (xs : List (Nat × Nat)) (a : Nat) : Bool := xs.any fun r => decide (r.1 ≤ a ∧ a < r.2)

/-- The set with `[lo, hi)` added, merging what it touches (for `lo < hi`). -/
def rangesAdd (lo hi : Nat) : List (Nat × Nat) → List (Nat × Nat)
  | [] => [(lo, hi)]
  | (a, b) :: rest =>
    if b < lo then (a, b) :: rangesAdd lo hi rest
    else if hi < a then (lo, hi) :: (a, b) :: rest
    else rangesAdd (min a lo) (max b hi) rest

/-- The set with `[lo, hi)` taken out (for `lo < hi`). -/
def rangesRemove (lo hi : Nat) : List (Nat × Nat) → List (Nat × Nat)
  | [] => []
  | (a, b) :: rest =>
    if b ≤ lo then (a, b) :: rangesRemove lo hi rest
    else if hi ≤ a then (a, b) :: rest
    else (if a < lo then [(a, lo)] else []) ++
      ((if hi < b then [(hi, b)] else []) ++ rangesRemove lo hi rest)

/-- Ranges from `k` on: nonempty, rising, not touching. -/
def rangesOrdered : Nat → List (Nat × Nat) → Bool
  | _, [] => true
  | k, (a, b) :: rest => decide (k ≤ a) && decide (a < b) && rangesOrdered (b + 1) rest

/-! ## Listed cells -/

/-- The byte listed at an address. -/
def cellLookup : List Host.Cell → Nat → Option Byte
  | [], _ => none
  | (k, v) :: rest, a => if k = a then some v else cellLookup rest a

/-- The list without an address. -/
def cellErase (a : Nat) : List Host.Cell → List Host.Cell
  | [] => []
  | (k, v) :: rest => if k = a then rest else if a < k then (k, v) :: rest else (k, v) :: cellErase a rest

/-- The list with a byte at an address. -/
def cellInsert (a : Nat) (b : Byte) : List Host.Cell → List Host.Cell
  | [] => [(a, b)]
  | (k, v) :: rest =>
    if k = a then (a, b) :: rest else if a < k then (a, b) :: (k, v) :: rest else (k, v) :: cellInsert a b rest

/-- The list without the addresses in `[lo, hi)`. -/
def cellsOutside (lo hi : Nat) (xs : List Host.Cell) : List Host.Cell :=
  xs.filter fun c => decide (c.1 < lo ∨ hi ≤ c.1)

/-- Cells from `k` on: addresses strictly rising, no byte 0. -/
def cellsOrdered : Nat → List Host.Cell → Bool
  | _, [] => true
  | k, c :: rest => decide (k ≤ c.1) && decide (c.2 ≠ 0) && cellsOrdered (c.1 + 1) rest

/-! ## Arena bytes (20_memory.md R42, R43) -/

/-- What an unlisted address reads as: 0 in a specified byte, no value in an unspecified one (20_memory.md R42). -/
def Memory.unlisted (m : Memory) (a : Nat) : Option Byte := if rangesMem m.known a then some 0 else none

/-- The byte at an address, `none` while it is unspecified. -/
def Memory.get? (m : Memory) (a : Nat) : Option Byte :=
  match cellLookup m.cells a with
  | some b => some b
  | none => m.unlisted a

/-- `MemWrite` of one byte (00_scope.md R11). -/
def Memory.put (m : Memory) (a : Nat) (b : Byte) : Memory :=
  ⟨rangesAdd a (a + 1) m.known, if b = 0 then cellErase a m.cells else cellInsert a b m.cells⟩

/-- The zero-fill of `[base, base + size)` (41_ring_buffer.md R84). -/
def Memory.zeroFill (m : Memory) (base size : Nat) : Memory :=
  if size = 0 then m else ⟨rangesAdd base (base + size) m.known, cellsOutside base (base + size) m.cells⟩

/-- The bytes of `[base, base + size)` become unspecified (20_memory.md R52). -/
def Memory.forget (m : Memory) (base size : Nat) : Memory :=
  if size = 0 then m else ⟨rangesRemove base (base + size) m.known, cellsOutside base (base + size) m.cells⟩

/-- The canonical form: ranges and cells in order, no listed byte equal to what its address would read as unlisted, no
listed byte outside the specified ones. -/
def Memory.wf (m : Memory) : Bool :=
  rangesOrdered 0 m.known && cellsOrdered 0 m.cells && m.cells.all fun c => rangesMem m.known c.1

/-! ## Arenas (20_memory.md R40) -/

/-- The arena of a space. -/
def State.arena (s : State) : Space → Arena
  | .large => s.large
  | .small => s.small

/-- The state with the arena of a space replaced. -/
def State.withArena (s : State) (sp : Space) (a : Arena) : State :=
  match sp with
  | .large => { s with large := a }
  | .small => { s with small := a }

/-- The state with the bytes of an arena changed. -/
def State.mapMem (s : State) (sp : Space) (f : Memory → Memory) : State :=
  s.withArena sp { s.arena sp with mem := f (s.arena sp).mem }

/-- One byte of an arena as it stands, `none` while it is unspecified (20_memory.md R58). -/
def State.byte? (s : State) (sp : Space) (a : Nat) : Option Byte := (s.arena sp).mem.get? a

/-- One byte of an arena for a ring buffer load. An unspecified byte has an open value; no run loads one (41_ring_buffer.md
R95; log entry 7). -/
def State.loadByte (s : State) (sp : Space) (a : Nat) : Byte := (s.byte? sp a).getD (Config.unknownByte sp a)

/-- `MemRead` of two bytes, little-endian (20_memory.md R44). -/
def State.loadHalf (s : State) (sp : Space) (a : Nat) : Half := s.loadByte sp (a + 1) ++ s.loadByte sp a

/-- `MemWrite` of one byte. -/
def State.storeByte (s : State) (sp : Space) (a : Nat) (b : Byte) : State := s.mapMem sp (·.put a b)

/-- `MemWrite` of two bytes, little-endian (20_memory.md R44). -/
def State.storeHalf (s : State) (sp : Space) (a : Nat) (v : Half) : State :=
  (s.storeByte sp a (v.extractLsb' 0 8)).storeByte sp (a + 1) (v.extractLsb' 8 8)

/-! ## Blocks of frames -/

/-- A block of `n` frames from a list. -/
def blockOf (n : Nat) (xs : List Frame) : Vector Frame n := Vector.ofFn fun k : Fin n => xs.getD k.val Frame.zero

/-- A block of zeros (48_sequencer.md R158). -/
def zeroBlock (n : Nat) : List Frame := List.replicate n Frame.zero

/-- A fixed-length vector mapped element by element. -/
def mapVector {α β : Type} {n : Nat} (f : α → β) (v : Vector α n) : Vector β n := Vector.ofFn fun k : Fin n => f v[k]

/-! ## How a command ends -/

/-- A command completes without a fault: it is counted (10_state.md R16) and puts its response, if it has one, on `RESP`
(30_encoding.md R61). -/
def complete (resp : Option Word) (s : State) : Result := .next { s with resp := resp, cmdcnt := s.cmdcnt + 1 }

/-- The five fault causes (60_exceptions.md R180). -/
inductive Cause where
  | illegalCmd
  | sequence
  | operand
  | unbound
  | arena
deriving DecidableEq, Repr

/-- The code of a cause in `FAULT_CAUSE` (60_exceptions.md R180). -/
def causeCode : Cause → BitVec 3
  | .illegalCmd => 1
  | .sequence => 2
  | .operand => 3
  | .unbound => 4
  | .arena => 5

/-- The state after `raise CAUSE(info)` by a command with word `w` (60_exceptions.md R186): the five writes, no response, no
count, nothing else. -/
def State.faulted (s : State) (c : Cause) (info : Nat) (w : Cmd) : State :=
  { s with
    fault := true
    faultCause := causeCode c
    faultInfo := BitVec.ofNat 32 info
    faultCmdLo := w.extractLsb' 0 32
    faultCmdHi := w.extractLsb' 32 32
    resp := none }

/-- Taking a fault, the one shared operation (60_exceptions.md R186). There is no return from it but hardware reset. -/
def raise (c : Cause) (info : Nat) (w : Cmd) (s : State) : Result := .next (s.faulted c info w)

/-- A word discarded in the faulted state: no response, no state change (60_exceptions.md R187). -/
def discard (s : State) : Result := .next { s with resp := none }

/-- In the faulted state a command is discarded (60_exceptions.md R187); otherwise it runs. -/
def unlessFaulted (s : State) (run : Result) : Result := if s.fault then discard s else run

/-- An illegal command word (60_exceptions.md R181): `ILLEGAL_CMD` with the opcode, or a discard in the faulted state. -/
def illegalCommand (w : Cmd) (s : State) : Result :=
  unlessFaulted s (raise .illegalCmd (opcField w).toNat w s)

/-! ## The host's ports (30_encoding.md R60) -/

/-- The next event at the input ports, and the state without it. -/
def nextEvent (s : State) : Option (HostEvent × State) :=
  match s.inputs with
  | [] => none
  | e :: rest => some (e, { s with inputs := rest })

/-- Hardware reset (70_reset_and_hazards.md R192): every piece of the spec's state at its reset value. The instance is the same,
what the host will do next stays to be consumed, and the free values already drawn stay drawn (log entry 10). -/
def hardwareReset (s : State) : State := { State.resetFor s.hw with inputs := s.inputs, draws := s.draws }

/-- The state with a command word presented as the next event on `CMD`. -/
def State.present (s : State) (w : Cmd) : State := { s with inputs := .command w :: s.inputs }

end Sys2Proof.Machine
end

