-- ==== Sys2Proof/Machine/Flags.lean ====
section
/-! DEFINITION. Flags and the registers the spec computes on read: the bits of `P[9]` and `QUALITY`, the rate registers
(10_state.md R22, R23), `STATUS` (R19), `GR_ACTIVE_MASK` (R34), `WS_CTRL` (R35) and the silence gate of `PROCESS`
(48_sequencer.md R158). -/

namespace Sys2Proof.Machine

/-- `P[9][0]`, which `STATUS.FROZEN` copies (10_state.md R19, R27). -/
def State.frozen (s : State) : Bool := s.p[9].getLsbD 0

/-- `P[9][1]`, the trigger flag (10_state.md R28). -/
def State.trigger (s : State) : Bool := s.p[9].getLsbD 1

/-- `QUALITY[0]`: one channel (10_state.md R22). -/
def State.mono (s : State) : Bool := s.quality.getLsbD 0

/-- `QUALITY[1]`: low fidelity (10_state.md R22). -/
def State.lofi (s : State) : Bool := s.quality.getLsbD 1

/-- `NUM_CHANNELS` (10_state.md R23). -/
def State.channels (s : State) : Nat := if s.mono then 1 else 2

/-- `RESOLUTION` (10_state.md R23). -/
def State.resolution (s : State) : Nat := if s.lofi then 8 else 16

/-- `INT_SR` (10_state.md R23). -/
def State.intSr (s : State) : Word := if s.lofi then s.sr >>> 1 else s.sr

/-- The sample encoding `QUALITY[1]` selects (20_memory.md R50). -/
def State.format (s : State) : SampleFormat := if s.lofi then .mulaw8 else .linear16

/-- The number of `PREV_MODE` (10_state.md R21). -/
def prevModeCode : Option Mode → Nat
  | some m => m.code
  | none => 4

/-- `STATUS` (10_state.md R19). -/
def State.status (s : State) : Word :=
  0#22 ++ bit s.small.declared ++ bit s.large.declared ++ bit s.loopSync ++ bit s.frozen ++ bit s.silence
    ++ bit s.bypass ++ bit s.fault ++ bit s.resetPending ++ bit s.inited ++ bit s.tablesValid

/-- `RB_FLAGS` (10_state.md R31). -/
def ringFlags (r : Ring) : Word := 0#29 ++ r.space.code ++ r.enc.code ++ bit r.bound

/-- `GR_ACTIVE_MASK` (10_state.md R34), as the sum of `2^k` over the active slots. -/
def activeMask : Nat → List GrainSlot → Nat
  | _, [] => 0
  | k, g :: rest => (if g.active then 2 ^ k else 0) + activeMask (k + 1) rest

/-- `WS_CTRL` (10_state.md R35). -/
def searchCtrl (w : Search) : Word := 0#30 ++ bit w.done ++ bit w.pending

/-- The silence gate of `PROCESS` step 2 (48_sequencer.md R158). -/
def State.gated (s : State) : Bool := s.silence || s.resetPending || decide (s.prevMode ≠ some s.mode)

end Sys2Proof.Machine
end

