-- ==== Sys2Proof/WellFormed.lean ====
section
/-! DEFINITION. Well-formed commands: the operand ranges of 30_encoding.md R64 that need the command alone and not the
state or the instance, which are the refused values of 60_exceptions.md R183 but for `PEEK`, whose range is the declared arena
size, and but for the ranges that `BLOCK_SIZE` ends: those are the widest of any instance (`BLOCK_SIZE` 2 to 256, 00_scope.md
R8). A command that is not well formed still has an encoding and decodes; running it raises `OPERAND` where no earlier check
raises (R66). -/

namespace Sys2Proof

/-- The register addresses `CSRR` may name, written from the list of 47_host_commands.md R137. -/
def mappedAddress (a : Nat) : Bool :=
  decide (a ≤ 0x00E) || decide (0x010 ≤ a ∧ a ≤ 0x017) || decide (0x020 ≤ a ∧ a ≤ 0x029)
  || decide (0x030 ≤ a ∧ a ≤ 0x038)
  || decide (0x040 ≤ a ∧ a ≤ 0x045) || decide (0x048 ≤ a ∧ a ≤ 0x04F)
  || decide (0x050 ≤ a ∧ a ≤ 0x055) || decide (0x058 ≤ a ∧ a ≤ 0x05F)
  || decide (0x080 ≤ a ∧ a < 0x100 ∧ a % 0x10 ≤ 0xC)
  || decide (0x100 ≤ a ∧ a ≤ 0x102) || decide (0x110 ≤ a ∧ a ≤ 0x18F)
  || decide (0x200 ≤ a ∧ a ≤ 0x204)

/-- The index into `INBUF_S` of the last sample an `RBWF` with `count > 0` reads (41_ring_buffer.md R89). -/
def rbwfLast (count stride src : BitVec 16) : Nat := src.toNat + (count.toNat - 1) * stride.toNat

/-- The state-independent operand ranges of 30_encoding.md R64 and 60_exceptions.md R183. -/
def Instr.WellFormed : Instr → Bool
  | .nop => true
  | .csrr addr => mappedAddress addr.toNat
  | .arena _ size => decide (size ≠ 0 ∧ size.toNat < 2 ^ 24)
  | .tblinit sampleRate => decide (sampleRate ≠ 0)
  | .init sampleRate => decide (sampleRate ≠ 0)
  | .pset index _ => decide (index.toNat ≤ 9)
  | .setmode mode => decide (mode.toNat ≤ 3)
  | .setqual quality => decide (quality.toNat ≤ 3)
  | .setsil _ => true
  | .setbyp _ => true
  | .rstbuf => true
  | .prepare => true
  | .process size => decide (size.toNat % 2 = 0 ∧ 2 ≤ size.toNat ∧ size.toNat ≤ Config.maxBlockSize)
  | .framew index _ _ => decide (index.toNat < Config.maxBlockSize)
  | .framer index => decide (index.toNat < Config.maxBlockSize)
  | .peek _ _ => true
  | .rbinit _ _ _ _ _ => true
  | .rbwf _ _ count stride src => decide (count = 0 ∨ rbwfLast count stride src < 2 * Config.maxBlockSize)
  | .rbrd _ _ _ => true
  | .svfrst _ => true
  | .svfset _ _ _ => true
  | .svfstep _ _ => true
  | .lim _ => true
  | .xfade dw _ _ => decide (dw.toNat ≤ 32768)

end Sys2Proof
end

