-- ==== Sys2Proof/Machine/Operands.lean ====
section
/-! DEFINITION. How operands are read (30_encoding.md R64, 47_host_commands.md R140) and the registers a `CSRR` reads
(10_state.md, 47_host_commands.md R137). -/

namespace Sys2Proof.Machine

/-- The value `PSET index, value` stores (47_host_commands.md R140), for `index` 0 to 9. -/
def paramValue (index : Nat) (value : Half) : Half :=
  if index = 2 then toHalf (clamp value.toInt (-12288) 12288)
  else if index = 9 then value &&& 7
  else if value.toNat ≤ 32768 then value else 32768

/-- `INBUF_S[t]`: the input frame buffer as a flat interleaved array (10_state.md R38). -/
def inbufFlat (s : State) (t : Nat) : Half :=
  let f := s.inbuf.getD (t / 2) Frame.zero
  if t % 2 = 0 then f.l else f.r

/-- The samples of an `RBWF`: `INBUF_S[src + t * stride]` for `t` from 0 (41_ring_buffer.md R89). -/
def rbwfSamples (s : State) (count stride src : Half) : List Half :=
  (List.range count.toNat).map fun t => inbufFlat s (src.toNat + t * stride.toNat)

/-! ## Registers (10_state.md) -/

/-- Addresses 0x000 to 0x017 (10_state.md R18 to R26, R37). -/
def globalReg? (s : State) : Nat → Option Word
  | 0x000 => some 0x52424D31
  | 0x001 => some s.status
  | 0x002 => some (BitVec.ofNat 32 s.mode.code)
  | 0x003 => some (BitVec.ofNat 32 (prevModeCode s.prevMode))
  | 0x004 => some (zextWord s.quality)
  | 0x005 => some s.sr
  | 0x006 => some s.tblSr
  | 0x007 => some (zextWord s.large.size)
  | 0x008 => some (zextWord s.small.size)
  | 0x009 => some (BitVec.ofNat 32 s.blockSize)
  | 0x00A => some s.cmdcnt
  | 0x00B => some (zextWord s.faultCause)
  | 0x00C => some s.faultInfo
  | 0x00D => some s.faultCmdLo
  | 0x00E => some s.faultCmdHi
  | 0x010 => some (zextWord s.wsSpace.code)
  | 0x011 => some (zextWord s.wsBase)
  | 0x012 => some (zextWord s.wsSize)
  | 0x013 => some (zextWord s.freezeLp)
  | 0x014 => some (zextWord s.dwPrev)
  | 0x015 => some s.intSr
  | 0x016 => some (BitVec.ofNat 32 s.resolution)
  | 0x017 => some (BitVec.ofNat 32 s.channels)
  | _ => none

/-- Offset `k` of the parameter registers (10_state.md R27): `P[2]` is sign-extended (log entry 11). -/
def paramReg? (s : State) (k : Nat) : Option Word :=
  if h : k < 10 then some (if k = 2 then sextWord s.p[k] else zextWord s.p[k]) else none

/-- Offset `k` of the derived-parameter registers (10_state.md R30). -/
def derivedReg? (d : Derived) : Nat → Option Word
  | 0 => some (zextWord d.overlap)
  | 1 => some (zextWord d.shape)
  | 2 => some (zextWord (bit d.det))
  | 3 => some (zextWord d.diff)
  | 4 => some (zextWord d.quant)
  | 5 => some (zextWord d.refresh)
  | 6 => some (zextWord d.warp)
  | 7 => some (zextWord d.phrand)
  | 8 => some (zextWord d.reverb)
  | _ => none

/-- Offset `k` of a ring buffer's registers (10_state.md R31). -/
def ringReg? (r : Ring) (k : Nat) : Option Word :=
  match k with
  | 0x0 => some (ringFlags r)
  | 0x1 => some (zextWord r.base)
  | 0x2 => some (zextWord r.size)
  | 0x3 => some (zextWord r.n)
  | 0x4 => some (zextWord r.wcur)
  | 0x5 => some (zextWord r.fade)
  | k => if h : 8 ≤ k ∧ k < 16 then some (sextWord (r.tail[k - 8]'(by simp only [Config.tail]; omega))) else none

/-- Offset `k` of a filter's registers (10_state.md R33). -/
def svfReg? (v : Svf) : Nat → Option Word
  | 0x0 => some (zextWord v.g)
  | 0x1 => some (zextWord v.r)
  | 0x2 => some (zextWord v.h)
  | 0x3 => some (v.s1.extractLsb' 0 32)
  | 0x4 => some (sextWord (v.s1.extractLsb' 32 8))
  | 0x5 => some (v.s2.extractLsb' 0 32)
  | 0x6 => some (sextWord (v.s2.extractLsb' 32 8))
  | 0x7 => some v.lp
  | 0x8 => some v.hp
  | 0x9 => some v.bp
  | 0xA => some v.notch
  | 0xB => some (zextWord v.f)
  | 0xC => some (zextWord v.q)
  | _ => none

/-- Offset `k` of the global grain registers (10_state.md R34). -/
def grainReg? (g : GrainPool) : Nat → Option Word
  | 0 => some g.prng
  | 1 => some g.spawnCtr
  | 2 => some (BitVec.ofNat 32 (activeMask 0 g.slots.toList))
  | _ => none

/-- Offset `k` of a grain slot's registers (10_state.md R34). -/
def slotReg? (g : GrainSlot) : Nat → Option Word
  | 0 => some (zextWord (bit g.active))
  | 1 => some (zextWord g.startHi)
  | 2 => some (zextWord g.startLo)
  | 3 => some (zextWord g.phase)
  | 4 => some (zextWord g.len)
  | 5 => some (zextWord g.ratio)
  | 6 => some (zextWord g.gainL)
  | 7 => some (zextWord g.gainR)
  | _ => none

/-- Offset `k` of the search registers (10_state.md R35). -/
def searchReg? (w : Search) : Nat → Option Word
  | 0 => some (searchCtrl w)
  | 1 => some (zextWord w.candIdx)
  | 2 => some (zextWord w.candCount)
  | 3 => some w.bestScore
  | 4 => some (zextWord w.bestOffset)
  | _ => none

/-- The register at an address, extended to 32 bits as its row says, or `none` at an address in no table (10_state.md R17,
47_host_commands.md R137). -/
def State.reg? (s : State) (a : Nat) : Option Word :=
  if a < 0x020 then globalReg? s a
  else if a < 0x030 then paramReg? s (a - 0x020)
  else if a < 0x040 then derivedReg? s.drv (a - 0x030)
  else if a < 0x050 then ringReg? s.rings[0] (a - 0x040)
  else if a < 0x060 then ringReg? s.rings[1] (a - 0x050)
  else if a < 0x080 then none
  else if h : a < 0x100 then svfReg? (s.svfs[a / 0x10 - 8]'(by simp only [Config.nSvf]; omega)) (a % 0x10)
  else if a < 0x110 then grainReg? s.grains (a - 0x100)
  else if h : a < 0x190 then
    slotReg? (s.grains.slots[(a - 0x110) / 8]'(by simp only [Config.maxGrains]; omega)) ((a - 0x110) % 8)
  else if a < 0x200 then none
  else searchReg? s.search (a - 0x200)

/-! ## The bundles of an open kernel (45_wsola.md R123) -/

/-- `KARGS` as the registers stand. -/
def State.kargs (s : State) : KArgs := ⟨s.intSr, s.tblSr, s.channels, s.lofi, s.wsSize, s.blockSize⟩

/-- `KPARAMS` as the registers stand. -/
def State.kparams (s : State) : KParams := ⟨s.p, s.drv⟩

end Sys2Proof.Machine
end

