-- ==== Sys2Proof/Machine/Tables.lean ====
section
/-! DEFINITION. The resource tables of 40_tables.md, entry by entry as listed there, their lookups, and `TBLINIT`. The tables
are constants of the design (R75); the flag `tablesValid` stands for them. -/

namespace Sys2Proof.Machine

/-! ## The mu-law code (40_tables.md R76, R77) -/

/-- `TBL_MULAW[c]` (R76). -/
def mulawDecode (c : Byte) : Int :=
  let seg := (c.extractLsb' 4 3).toNat
  let man := (c.extractLsb' 0 4).toNat
  let mag : Int := (((man <<< 3) + 132) <<< seg : Nat) - 132
  if c.getLsbD 7 then -mag else mag

/-- `MULAW_ENC(v)` (R77). `bitlen(mag)` is `Nat.log2 mag + 1`. -/
def mulawEncode (v : Int) : Byte :=
  let sign : Nat := if v < 0 then 1 else 0
  let mag : Nat := min v.natAbs 32635 + 132
  let seg : Nat := Nat.log2 mag + 1 - 8
  let man : Nat := (mag >>> (seg + 3)) &&& 15
  BitVec.ofNat 8 (sign <<< 7 ||| seg <<< 4 ||| man)

/-! ## Pitch ratios (40_tables.md R79, R80) -/

/-- Entries 0 to 63 of `tblPitchHi`. -/
def tblPitchHi0 : List Nat :=
  [40, 43, 45, 48, 51, 54, 57, 60, 64, 68, 72, 76, 81, 85, 91, 96,
   102, 108, 114, 121, 128, 136, 144, 152, 161, 171, 181, 192, 203, 215, 228, 242,
   256, 271, 287, 304, 323, 342, 362, 384, 406, 431, 456, 483, 512, 542, 575, 609,
   645, 683, 724, 767, 813, 861, 912, 967, 1024, 1085, 1149, 1218, 1290, 1367, 1448, 1534]

/-- Entries 64 to 127 of `tblPitchHi`. -/
def tblPitchHi1 : List Nat :=
  [1625, 1722, 1825, 1933, 2048, 2170, 2299, 2435, 2580, 2734, 2896, 3069, 3251, 3444, 3649, 3866,
   4096, 4340, 4598, 4871, 5161, 5468, 5793, 6137, 6502, 6889, 7298, 7732, 8192, 8679, 9195, 9742,
   10321, 10935, 11585, 12274, 13004, 13777, 14596, 15464, 16384, 17358, 18390, 19484, 20643, 21870, 23170, 24548,
   26008, 27554, 29193, 30929, 32768, 34716, 36781, 38968, 41285, 43740, 46341, 49097, 52016, 55109, 58386, 61858]

/-- Entries 128 to 191 of `tblPitchHi`. -/
def tblPitchHi2 : List Nat :=
  [65536, 69433, 73562, 77936, 82570, 87480, 92682, 98193, 104032, 110218, 116772, 123715, 131072, 138866, 147123, 155872,
   165140, 174960, 185364, 196386, 208064, 220436, 233544, 247431, 262144, 277732, 294247, 311744, 330281, 349920, 370728, 392772,
   416128, 440872, 467088, 494862, 524288, 555464, 588493, 623487, 660561, 699841, 741455, 785544, 832255, 881744, 934175, 989724,
   1048576, 1110928, 1176987, 1246974, 1321123, 1399681, 1482910, 1571089, 1664511, 1763488, 1868350, 1979448, 2097152, 2221855, 2353974, 2493948]

/-- Entries 192 to 255 of `tblPitchHi`. -/
def tblPitchHi3 : List Nat :=
  [2642246, 2799362, 2965821, 3142178, 3329021, 3526975, 3736700, 3958896, 4194304, 4443710, 4707947, 4987896, 5284492, 5598724, 5931642, 6284355,
   6658043, 7053950, 7473400, 7917792, 8388608, 8887421, 9415894, 9975792, 10568984, 11197448, 11863283, 12568711, 13316085, 14107901, 14946800, 15835583,
   16777216, 17774841, 18831788, 19951585, 21137968, 22394897, 23726566, 25137421, 26632170, 28215802, 29893600, 31671166, 33554432, 35549682, 37663576, 39903169,
   42275935, 44789793, 47453133, 50274843, 53264341, 56431603, 59787201, 63342333, 67108864, 71099365, 75327153, 79806339, 84551870, 89579586, 94906266, 100549686]

/-- `TBL_PITCH_HI` (R79): the `UQ16.16` ratio of `i - 128` semitones. -/
def tblPitchHi : List Nat := tblPitchHi0 ++ tblPitchHi1 ++ tblPitchHi2 ++ tblPitchHi3

/-- Entries 0 to 63 of `tblPitchLo`. -/
def tblPitchLo0 : List Nat :=
  [65536, 65551, 65566, 65580, 65595, 65610, 65625, 65640, 65654, 65669, 65684, 65699, 65714, 65729, 65743, 65758,
   65773, 65788, 65803, 65818, 65832, 65847, 65862, 65877, 65892, 65907, 65922, 65936, 65951, 65966, 65981, 65996,
   66011, 66026, 66041, 66056, 66071, 66085, 66100, 66115, 66130, 66145, 66160, 66175, 66190, 66205, 66220, 66235,
   66250, 66265, 66280, 66294, 66309, 66324, 66339, 66354, 66369, 66384, 66399, 66414, 66429, 66444, 66459, 66474]

/-- Entries 64 to 127 of `tblPitchLo`. -/
def tblPitchLo1 : List Nat :=
  [66489, 66504, 66519, 66534, 66549, 66564, 66579, 66594, 66609, 66624, 66639, 66654, 66670, 66685, 66700, 66715,
   66730, 66745, 66760, 66775, 66790, 66805, 66820, 66835, 66850, 66865, 66880, 66896, 66911, 66926, 66941, 66956,
   66971, 66986, 67001, 67016, 67032, 67047, 67062, 67077, 67092, 67107, 67122, 67137, 67153, 67168, 67183, 67198,
   67213, 67228, 67244, 67259, 67274, 67289, 67304, 67320, 67335, 67350, 67365, 67380, 67395, 67411, 67426, 67441]

/-- Entries 128 to 191 of `tblPitchLo`. -/
def tblPitchLo2 : List Nat :=
  [67456, 67472, 67487, 67502, 67517, 67532, 67548, 67563, 67578, 67593, 67609, 67624, 67639, 67655, 67670, 67685,
   67700, 67716, 67731, 67746, 67761, 67777, 67792, 67807, 67823, 67838, 67853, 67869, 67884, 67899, 67915, 67930,
   67945, 67961, 67976, 67991, 68007, 68022, 68037, 68053, 68068, 68083, 68099, 68114, 68129, 68145, 68160, 68176,
   68191, 68206, 68222, 68237, 68252, 68268, 68283, 68299, 68314, 68330, 68345, 68360, 68376, 68391, 68407, 68422]

/-- Entries 192 to 255 of `tblPitchLo`. -/
def tblPitchLo3 : List Nat :=
  [68438, 68453, 68468, 68484, 68499, 68515, 68530, 68546, 68561, 68577, 68592, 68608, 68623, 68639, 68654, 68670,
   68685, 68701, 68716, 68732, 68747, 68763, 68778, 68794, 68809, 68825, 68840, 68856, 68871, 68887, 68902, 68918,
   68933, 68949, 68965, 68980, 68996, 69011, 69027, 69042, 69058, 69074, 69089, 69105, 69120, 69136, 69152, 69167,
   69183, 69198, 69214, 69230, 69245, 69261, 69276, 69292, 69308, 69323, 69339, 69355, 69370, 69386, 69402, 69417]

/-- `TBL_PITCH_LO` (R79): the `UQ16.16` ratio of `j / 256` of a semitone. -/
def tblPitchLo : List Nat := tblPitchLo0 ++ tblPitchLo1 ++ tblPitchLo2 ++ tblPitchLo3

/-- `PITCH_RATIO(p)` (R80), for `p` an `SQ8` semitone value. -/
def pitchRatio (p : Int) : Nat :=
  let idx := ((p + 32768) >>> 8).toNat
  let fr := (p % 256).toNat
  (tblPitchHi.getD idx 0 * tblPitchLo.getD fr 0) >>> 16

/-! ## Window (40_tables.md R81) -/

/-- Entries 0 to 32 of `TBL_WINDOW` (R81). -/
def tblWindowHalf : List Int :=
  [0, 79, 315, 705, 1247, 1935, 2761, 3719, 4799, 5990, 7282, 8661, 10114, 11628, 13188, 14778,
   16384, 17990, 19580, 21140, 22654, 24107, 25486, 26778, 27969, 29049, 30007, 30833, 31521, 32063, 32453, 32689,
   32768]

/-- `TBL_WINDOW[i]` (R81): the table is symmetric about entry 32. -/
def tblWindow (i : Nat) : Int := if i ≤ 32 then tblWindowHalf.getD i 0 else tblWindowHalf.getD (64 - i) 0

/-- `WINDOW(e)` (R81), for `e` a `UQ16` phase. -/
def windowAt (e : Nat) : Int :=
  let idx := e >>> 10
  let fr : Int := (e % 1024 : Nat)
  tblWindow idx + (((tblWindow (idx + 1) - tblWindow idx) * fr) >>> 10)

/-! ## Crossfade curves (40_tables.md R82) -/

/-- `TBL_XF_IN` (R82). -/
def tblXfIn : List Int :=
  [0, 1636, 3984, 6289, 8530, 10681, 12721, 14629, 16384, 17969, 19366, 20562, 21543, 22301, 22825, 23113,
   23170]

/-- `TBL_XF_OUT` (R82). -/
def tblXfOut : List Int :=
  [23170, 23113, 22825, 22301, 21543, 20562, 19366, 17969, 16384, 14629, 12721, 10681, 8530, 6289, 3984, 1636,
   0]

/-- `XF_LOOKUP(T, dw)` (R82), for `dw` a `UQ15`. -/
def xfLookup (tbl : List Int) (dw : Nat) : Int :=
  let idx := dw >>> 11
  let fr : Int := (dw % 2048 : Nat)
  if 16 ≤ idx then tbl.getD 16 0
  else tbl.getD idx 0 + (((tbl.getD (idx + 1) 0 - tbl.getD idx 0) * fr) >>> 11)

/-! ## Grain size (40_tables.md R83) -/

/-- `TBL_GRAIN_SIZE` (R83), in samples at the internal rate. -/
def tblGrainSize : List Int :=
  [128, 152, 181, 215, 256, 304, 362, 431, 512, 609, 724, 861, 1024, 1218, 1448, 1722,
   2048, 2435, 2896, 3444, 4096, 4871, 5793, 6889, 8192, 9742, 11585, 13777, 16384, 19484, 23170, 27554,
   32768]

/-- `GRAIN_SIZE(size)` (R83), for `size` a `UQ15`. -/
def grainSize (size : Nat) : Int :=
  let idx := size >>> 10
  let fr : Int := (size % 1024 : Nat)
  if 32 ≤ idx then tblGrainSize.getD 32 0
  else tblGrainSize.getD idx 0 + (((tblGrainSize.getD (idx + 1) 0 - tblGrainSize.getD idx 0) * fr) >>> 10)

/-! ## TBLINIT -/

/-- `TBLINIT sample_rate` (40_tables.md R71). -/
def execTblinit (sampleRate : BitVec 32) (s : State) : Result :=
  unlessFaulted s <|
  if s.tablesValid then raise .sequence 0 (encode (.tblinit sampleRate)) s
  else if sampleRate = 0 then raise .operand 0 (encode (.tblinit sampleRate)) s
  else complete none { s with tblSr := sampleRate, tablesValid := true }

end Sys2Proof.Machine
end

