-- ==== Sys2Proof/Machine/RingBuffer.lean ====
section
/-! DEFINITION. The ring audio buffer unit (41_ring_buffer.md): binding, the fading write, the interpolated read, and the
commands `RBINIT`, `RBWF`, `RBRD`. The encoding enters only through `rbLoad` and `rbStore` (20_memory.md R45, R46). -/

namespace Sys2Proof.Machine

/-! ## Samples (20_memory.md R45, R46) -/

/-- Bytes of one stored sample (20_memory.md R44). -/
def sampleWidth : SampleFormat → Nat
  | .linear16 => 2
  | .mulaw8 => 1

/-- The arena address of the first byte of sample `a` of an instance (20_memory.md R44). -/
def sampleAddress (r : Ring) (a : Nat) : Nat := r.base.toNat + sampleWidth r.enc * a

/-- `RB_LOAD(i, a)` (20_memory.md R45): the decoded value of sample `a`. -/
def rbLoad (s : State) (i : Fin 2) (a : Nat) : Int :=
  let r := s.rings[i]
  match r.enc with
  | .linear16 => (s.loadHalf r.space (sampleAddress r a)).toInt
  | .mulaw8 => mulawDecode (s.loadByte r.space (sampleAddress r a))

/-- `RB_STORE(i, a, v)` (20_memory.md R46). -/
def rbStore (s : State) (i : Fin 2) (a : Nat) (v : Int) : State :=
  let r := s.rings[i]
  match r.enc with
  | .linear16 => s.storeHalf r.space (sampleAddress r a) (toHalf v)
  | .mulaw8 => s.storeByte r.space (sampleAddress r a) (mulawEncode v)

/-- The state with the register set of one instance replaced. -/
def State.withRing (s : State) (i : Fin 2) (r : Ring) : State := { s with rings := s.rings.set i r }

/-! ## Binding (41_ring_buffer.md R84) -/

/-- The capacity in samples of a region (20_memory.md R48). -/
def capacity (enc : SampleFormat) (size : Nat) : Nat :=
  match enc with
  | .linear16 => size >>> 1
  | .mulaw8 => size

/-- `RB_BIND(i, space, enc, base, size)` (41_ring_buffer.md R84). -/
def rbBind (s : State) (i : Fin 2) (space : Space) (enc : SampleFormat) (base size : BitVec 24) : State :=
  (s.withRing i ⟨true, enc, space, base, size, BitVec.ofNat 24 (capacity enc size.toNat), 0, 0,
      Vector.replicate Config.tail 0⟩).mapMem space (·.zeroFill base.toNat size.toNat)

/-- `RB_UNBIND(i)` (41_ring_buffer.md R84): every register of the set is 0, the arena bytes stay. -/
def rbUnbind (s : State) (i : Fin 2) : State := s.withRing i Ring.unbound

/-! ## Writing (41_ring_buffer.md R86, R87) -/

/-- The value `RB_PUT` stores (41_ring_buffer.md R86): while the write fade runs, a linear ramp from the old content. -/
def rbFaded (s : State) (i : Fin 2) (x : Int) : Int :=
  let r := s.rings[i]
  if 0 < r.fade.toNat then
    let k : Int := (Config.fadeLen : Int) - (r.fade.toNat : Int)
    let old := rbLoad s i r.wcur.toNat
    old + (((x - old) * (k + 1)) >>> Config.fadeShift)
  else x

/-- `RB_PUT(i, x)` (41_ring_buffer.md R86): store at the cursor, refresh the tail copy with the value as stored, advance. -/
def rbPut (s : State) (i : Fin 2) (x : Int) : State :=
  let r := s.rings[i]
  let a := r.wcur.toNat
  let t := rbStore s i a (rbFaded s i x)
  t.withRing i { r with
    fade := if 0 < r.fade.toNat then r.fade - 1 else r.fade
    tail := if h : a < Config.tail then r.tail.set a (toHalf (rbLoad t i a)) h else r.tail
    wcur := BitVec.ofNat 24 ((a + 1) % r.n.toNat) }

/-- `RB_WRITE(i, xs, allow)` (41_ring_buffer.md R87). -/
def rbWrite (s : State) (i : Fin 2) (xs : List Half) (allow : Bool) : State :=
  if xs.isEmpty then s
  else if allow then xs.foldl (fun t x => rbPut t i x.toInt) s
  else s.withRing i { s.rings[i] with fade := BitVec.ofNat 7 Config.fadeLen }

/-! ## Reading (41_ring_buffer.md R90, R91) -/

/-- `RB_READ_ABS(i, p, frac)` (41_ring_buffer.md R90); the second tap past the end is `RB_TAIL[0]`. -/
def rbReadAbs (s : State) (i : Fin 2) (p frac : Nat) : Int :=
  let r := s.rings[i]
  let a := rbLoad s i p
  let b := if p + 1 < r.n.toNat then rbLoad s i (p + 1) else r.tail[0].toInt
  a + (((b - a) * (frac : Int)) >>> 16)

/-- The sample index `d` whole samples behind the newest (41_ring_buffer.md R91). -/
def rbBehind (r : Ring) (d : Nat) : Nat := (((r.wcur.toNat : Int) - 1 - (d : Int)) % (r.n.toNat : Int)).toNat

/-- `RB_READ(i, d, frac)` (41_ring_buffer.md R91). -/
def rbRead (s : State) (i : Fin 2) (d frac : Nat) : Int := rbReadAbs s i (rbBehind s.rings[i] d) frac

/-- The view of one ring buffer an open kernel gets (45_wsola.md R123). -/
def rbView (s : State) (i : Fin 2) : RbView :=
  let r := s.rings[i]
  ⟨r.bound, r.n, r.wcur, r.tail, fun a => if a < r.n.toNat then toHalf (rbLoad s i a) else 0⟩

/-- `RBVIEW` (45_wsola.md R123). -/
def rbViews (s : State) : RbViews := ⟨rbView s 0, rbView s 1⟩

/-! ## Commands -/

/-- The other ring buffer instance. -/
def otherRing (i : Fin 2) : Fin 2 := if i = 0 then 1 else 0

/-- The region check of `RBINIT` (41_ring_buffer.md R85): true where one of its four `ARENA` conditions holds. -/
def rbinitMisfit (s : State) (i : Fin 2) (space : Space) (enc : SampleFormat) (base size : BitVec 24) : Bool :=
  let o := s.rings[otherRing i]
  decide ((s.arena space).size.toNat < base.toNat + size.toNat)
  || (decide (enc = .linear16) && (base.getLsbD 0 || size.getLsbD 0))
  || decide (capacity enc size.toNat < Config.tail)
  || (o.bound && decide (o.space = space) && decide (base.toNat < o.base.toNat + o.size.toNat)
      && decide (o.base.toNat < base.toNat + size.toNat))

/-- `RBINIT inst, space, enc, base, size` (41_ring_buffer.md R85). -/
def execRbinit (inst : Fin 2) (space : Space) (enc : SampleFormat) (base size : BitVec 24) (s : State) : Result :=
  unlessFaulted s <|
  if !s.tablesValid || s.inited || !(s.arena space).declared then
    raise .sequence 0 (encode (.rbinit inst space enc base size)) s
  else if rbinitMisfit s inst space enc base size then
    raise .arena 0 (encode (.rbinit inst space enc base size)) s
  else complete none (rbBind s inst space enc base size)

/-- `RBWF inst, allow, count, stride, src` (41_ring_buffer.md R89). -/
def execRbwf (inst : Fin 2) (allow : Bool) (count stride src : BitVec 16) (s : State) : Result :=
  unlessFaulted s <|
  if !s.tablesValid then raise .sequence 0 (encode (.rbwf inst allow count stride src)) s
  else if 0 < count.toNat ∧ 2 * s.blockSize ≤ rbwfLast count stride src then
    raise .operand (rbwfLast count stride src) (encode (.rbwf inst allow count stride src)) s
  else if !s.rings[inst].bound then raise .unbound inst.val (encode (.rbwf inst allow count stride src)) s
  else complete none (rbWrite s inst (rbwfSamples s count stride src) allow)

/-- `RBRD inst, offset, frac` (41_ring_buffer.md R92). -/
def execRbrd (inst : Fin 2) (offset : BitVec 32) (frac : BitVec 16) (s : State) : Result :=
  unlessFaulted s <|
  if !s.tablesValid then raise .sequence 0 (encode (.rbrd inst offset frac)) s
  else if !s.rings[inst].bound then raise .unbound inst.val (encode (.rbrd inst offset frac)) s
  else complete (some (toWord (rbRead s inst offset.toNat frac.toNat))) s

end Sys2Proof.Machine
end

