-- ==== Sys2Proof/Machine/Svf.lean ====
section
/-! DEFINITION. The multi-mode state-variable filter unit (42_svf.md) and the commands `SVFRST`, `SVFSET`, `SVFSTEP`. An
operation takes one instance's registers and returns them, so no instance can touch another (R96). -/

namespace Sys2Proof.Machine

/-- `SVF_CLEAR` (42_svf.md R97): the signal state is cleared, the coefficients stay. -/
def svfClear (v : Svf) : Svf := { v with s1 := 0, s2 := 0, lp := 0, hp := 0, bp := 0, notch := 0 }

/-- The tangent polynomial of a clamped cutoff (42_svf.md R99). -/
def svfTan (f : Nat) : Nat :=
  let f2 := (f * f) >>> 16
  let t := Config.svfC3 + ((Config.svfC5 * f2) >>> 16)
  (f * (Config.svfC1 + ((f2 * t) >>> 16))) >>> 16

/-- `SVF_SET(f, q)` (42_svf.md R99). -/
def svfSet (v : Svf) (f q : Nat) : Svf :=
  let f := min f Config.fMax
  let q := clampNat q Config.qMin Config.qMax
  let g := svfTan f
  let r := 2 ^ 32 / q
  let h := 2 ^ 32 / (65536 + ((r * g) >>> 16) + ((g * g) >>> 16))
  { v with
    f := BitVec.ofNat 16 f
    q := BitVec.ofNat 24 q
    g := BitVec.ofNat 19 g
    r := BitVec.ofNat 18 r
    h := BitVec.ofNat 17 h }

/-- `SVF_STEP(x)` (42_svf.md R101), for `x` an `S32` in Q15 scale: exact integers, saturating only the six writes. -/
def svfStep (v : Svf) (x : Int) : Svf :=
  let g : Int := v.g.toNat
  let r : Int := v.r.toNat
  let h : Int := v.h.toNat
  let s1 := v.s1.toInt
  let s2 := v.s2.toInt
  let t1 := ((r + g) * s1) >>> 16
  let hp := ((x * 256 - t1 - s2) * h) >>> 16
  let v1 := (g * hp) >>> 16
  let bp := v1 + s1
  let v2 := (g * bp) >>> 16
  let lp := v2 + s2
  { v with
    s1 := BitVec.ofInt 40 (sat40 (v1 + bp))
    s2 := BitVec.ofInt 40 (sat40 (v2 + lp))
    lp := BitVec.ofInt 32 (sat32 (lp >>> 8))
    hp := BitVec.ofInt 32 (sat32 (hp >>> 8))
    bp := BitVec.ofInt 32 (sat32 (bp >>> 8))
    notch := BitVec.ofInt 32 (sat32 ((hp + lp) >>> 8)) }

/-- The state with one filter instance replaced. -/
def State.withSvf (s : State) (i : Fin 8) (v : Svf) : State := { s with svfs := s.svfs.set i v }

/-- Every filter's signal state cleared (42_svf.md R97). -/
def clearAllSvf (svfs : Vector Svf Config.nSvf) : Vector Svf Config.nSvf := mapVector svfClear svfs

/-- `SVFRST inst` (42_svf.md R98). -/
def execSvfrst (inst : Fin 8) (s : State) : Result :=
  unlessFaulted s <|
  if !s.tablesValid then raise .sequence 0 (encode (.svfrst inst)) s
  else complete none (s.withSvf inst (svfClear s.svfs[inst]))

/-- `SVFSET inst, f, q` (42_svf.md R100). -/
def execSvfset (inst : Fin 8) (f : BitVec 16) (q : BitVec 32) (s : State) : Result :=
  unlessFaulted s <|
  if !s.tablesValid then raise .sequence 0 (encode (.svfset inst f q)) s
  else complete none (s.withSvf inst (svfSet s.svfs[inst] f.toNat q.toNat))

/-- `SVFSTEP inst, x` (42_svf.md R102). -/
def execSvfstep (inst : Fin 8) (x : BitVec 32) (s : State) : Result :=
  unlessFaulted s <|
  if !s.tablesValid then raise .sequence 0 (encode (.svfstep inst x)) s
  else complete none (s.withSvf inst (svfStep s.svfs[inst] x.toInt))

end Sys2Proof.Machine
end

