-- ==== Sys2Proof/Machine/HostCommands.lean ====
section
/-! DEFINITION. The thirteen host-interface commands (47_host_commands.md). -/

namespace Sys2Proof.Machine

/-- `NOP` (47_host_commands.md R136). -/
def execNop (s : State) : Result := unlessFaulted s (complete none s)

/-- `CSRR addr` (47_host_commands.md R137). In the faulted state a mapped address still responds, uncounted, and any other is
discarded (60_exceptions.md R187). -/
def execCsrr (addr : BitVec 16) (s : State) : Result :=
  match s.reg? addr.toNat with
  | some v => if s.fault then .next { s with resp := some v } else complete (some v) s
  | none => unlessFaulted s (raise .operand addr.toNat (encode (.csrr addr)) s)

/-- An instance bound in a space is unbound (47_host_commands.md R138). -/
def unbindIn (which : Space) (r : Ring) : Ring := if r.bound ∧ r.space = which then Ring.unbound else r

/-- The effect of `ARENA which, size` (47_host_commands.md R138). -/
def declareArena (s : State) (which : Space) (size : BitVec 24) : State :=
  { s.withArena which ⟨true, size, Memory.unspecified⟩ with rings := mapVector (unbindIn which) s.rings }

/-- `ARENA which, size` (47_host_commands.md R138). -/
def execArena (which : Space) (size : BitVec 32) (s : State) : Result :=
  unlessFaulted s <|
  if s.inited then raise .sequence 0 (encode (.arena which size)) s
  else if size = 0 ∨ 2 ^ 24 ≤ size.toNat then raise .operand size.toNat (encode (.arena which size)) s
  else complete none (declareArena s which (size.setWidth 24))

/-- The registers `INIT` writes, before the kernels' init functions run (47_host_commands.md R139). -/
def initRegisters (s : State) (sampleRate : BitVec 32) : State :=
  { s with
    sr := sampleRate
    inited := true
    resetPending := true
    mode := .granular
    prevMode := none
    quality := 0
    bypass := false
    silence := false
    loopSync := false
    p := Vector.replicate 10 0
    drv := ⟨0, 0, false, 0, 0, 0, 0, 0, 0⟩
    freezeLp := 0
    dwPrev := 0
    upPrev := Frame.zero
    fbbuf := zeroBlock s.blockSize
    svfs := clearAllSvf s.svfs
    rings := Vector.replicate 2 Ring.unbound
    wsSpace := .large
    wsBase := 0
    wsSize := 0
    grains := GrainPool.fresh
    search := Search.idle }

/-- The effect of `INIT sample_rate` (47_host_commands.md R139). -/
def initBlock (s : State) (sampleRate : BitVec 32) : State :=
  let t := initRegisters s sampleRate
  { t with kernels := Kernels.initAll t.kargs }

/-- `INIT sample_rate` (47_host_commands.md R139). -/
def execInit (sampleRate : BitVec 32) (s : State) : Result :=
  unlessFaulted s <|
  if !s.tablesValid || s.inited || !s.large.declared || !s.small.declared then
    raise .sequence 0 (encode (.init sampleRate)) s
  else if sampleRate = 0 then raise .operand 0 (encode (.init sampleRate)) s
  else complete none (initBlock s sampleRate)

/-- `PSET index, value` (47_host_commands.md R140). -/
def execPset (index : BitVec 8) (value : BitVec 16) (s : State) : Result :=
  unlessFaulted s <|
  if h : index.toNat < 10 then complete none { s with p := s.p.set index.toNat (paramValue index.toNat value) h }
  else raise .operand index.toNat (encode (.pset index value)) s

/-- `SETMODE mode` (47_host_commands.md R141). -/
def execSetmode (mode : BitVec 8) (s : State) : Result :=
  unlessFaulted s <|
  match Mode.ofNat? mode.toNat with
  | some m => complete none { s with mode := m }
  | none => raise .operand mode.toNat (encode (.setmode mode)) s

/-- `SETQUAL quality` (47_host_commands.md R142). -/
def execSetqual (quality : BitVec 8) (s : State) : Result :=
  unlessFaulted s <|
  if 3 < quality.toNat then raise .operand quality.toNat (encode (.setqual quality)) s
  else
    let q : BitVec 2 := quality.setWidth 2
    complete none { s with resetPending := s.resetPending || decide (q ≠ s.quality), quality := q }

/-- `SETSIL flag` (47_host_commands.md R143). -/
def execSetsil (flag : Bool) (s : State) : Result := unlessFaulted s (complete none { s with silence := flag })

/-- `SETBYP flag` (47_host_commands.md R144). -/
def execSetbyp (flag : Bool) (s : State) : Result := unlessFaulted s (complete none { s with bypass := flag })

/-- `RSTBUF` (47_host_commands.md R145). -/
def execRstbuf (s : State) : Result := unlessFaulted s (complete none { s with resetPending := true })

/-- `FRAMEW index, left, right` (47_host_commands.md R146). -/
def execFramew (index left right : BitVec 16) (s : State) : Result :=
  unlessFaulted s <|
  if index.toNat < s.blockSize then
    complete none { s with inbuf := s.inbuf.set index.toNat ⟨left, right⟩ }
  else raise .operand index.toNat (encode (.framew index left right)) s

/-- `FRAMER index` (47_host_commands.md R147): right in bits 31:16, left in bits 15:0. -/
def execFramer (index : BitVec 16) (s : State) : Result :=
  unlessFaulted s <|
  if index.toNat < s.blockSize then
    let f := s.outbuf.getD index.toNat Frame.zero
    complete (some (f.r ++ f.l)) s
  else raise .operand index.toNat (encode (.framer index)) s

/-- `PEEK space, addr` (47_host_commands.md R148). A specified byte is read as it stands; an unspecified one gives the next
free value (20_memory.md R42; log entry 6). -/
def execPeek (space : Space) (addr : BitVec 32) (s : State) : Result :=
  unlessFaulted s <|
  if !(s.arena space).declared then raise .sequence 0 (encode (.peek space addr)) s
  else if (s.arena space).size.toNat ≤ addr.toNat then raise .operand addr.toNat (encode (.peek space addr)) s
  else
    match s.byte? space addr.toNat with
    | some b => complete (some (zextWord b)) s
    | none => complete (some (zextWord (Config.freeByte s.draws))) { s with draws := s.draws + 1 }

end Sys2Proof.Machine
end

