-- ==== Sys2Proof/Machine/LimiterCrossfade.lean ====
section
/-! DEFINITION. The soft limiter and the crossfade scheduler (43_limiter_crossfade.md), and the commands `LIM`, `XFADE`. -/

namespace Sys2Proof.Machine

/-- `SOFT_LIMIT(x)` (43_limiter_crossfade.md R104), for `x` an `S32` in Q15 scale. -/
def softLimit (x : Int) : Int :=
  let m := min (x.natAbs : Int) Config.limKnee
  let y : Int := min 32767 (m - ((Config.limA * m * m * m) >>> 45))
  if x < 0 then -y else y

/-- `XFADE_MIX(dw, dry, wet)` (43_limiter_crossfade.md R107), for `dw` a `UQ15`. -/
def xfadeMix (dw : Nat) (dry wet : Int) : Int :=
  let fi := xfLookup tblXfIn dw
  let fo := xfLookup tblXfOut dw
  let w := (wet * Config.wetGain) >>> 15
  sat16 (((dry * fo) >>> 15) + ((w * fi) >>> 15))

/-- The position of frame `k` of a block of `n` on the ramp from `prev` to `target` (43_limiter_crossfade.md R109). -/
def rampAt (prev target : Nat) (n k : Nat) : Int :=
  (prev : Int) + (((k : Int) + 1) * ((target : Int) - (prev : Int))) / (n : Int)

/-- One frame of the dry/wet mix at a ramp position (43_limiter_crossfade.md R109). -/
def mixFrame (dw : Nat) (dry wet : Frame) : Frame :=
  ⟨toHalf (xfadeMix dw dry.l.toInt wet.l.toInt), toHalf (xfadeMix dw dry.r.toInt wet.r.toInt)⟩

/-- The crossfade scheduler over one block (43_limiter_crossfade.md R109). -/
def mixBlock {n : Nat} (prev target : Nat) (dry : List Frame) (wet : Vector Frame n) : Vector Frame n :=
  Vector.ofFn fun k : Fin n => mixFrame (rampAt prev target n k.val).toNat (dry.getD k.val Frame.zero) wet[k]

/-- `LIM x` (43_limiter_crossfade.md R106). -/
def execLim (x : BitVec 32) (s : State) : Result :=
  unlessFaulted s <|
  if !s.tablesValid then raise .sequence 0 (encode (.lim x)) s
  else complete (some (toWord (softLimit x.toInt))) s

/-- `XFADE dw, dry, wet` (43_limiter_crossfade.md R108). -/
def execXfade (dw dry wet : BitVec 16) (s : State) : Result :=
  unlessFaulted s <|
  if !s.tablesValid then raise .sequence 0 (encode (.xfade dw dry wet)) s
  else if 32768 < dw.toNat then raise .operand dw.toNat (encode (.xfade dw dry wet)) s
  else complete (some (toWord (xfadeMix dw.toNat dry.toInt wet.toInt))) s

end Sys2Proof.Machine
end

