-- ==== Sys2Proof/Machine/Grain.lean ====
section
/-! DEFINITION. The grain scheduler engine (44_grain.md): derived parameters, generator, spawn decision, spawning, synthesis.
It has no command; `PROCESS` runs it in Granular mode. -/

namespace Sys2Proof.Machine

/-! ## Derived parameters (44_grain.md R111) -/

/-- `DRV_OVERLAP` of the density (44_grain.md R111). -/
def deriveOverlap (dens : Nat) : Nat :=
  let d := ((dens : Int) - 16384).natAbs * 2
  32768 + ((d * d) >>> 15) * (Config.grMaxOverlap - 1)

/-- `DRV_DET` of the density (44_grain.md R111). -/
def deriveDet (dens : Nat) : Bool := decide (dens < 16384)

/-- `DRV_SHAPE` of the texture (44_grain.md R111). -/
def deriveShape (tex : Nat) : Nat := if tex < 24576 then tex * 4 / 3 else 32768

/-! ## The generator (44_grain.md R112) -/

/-- The next state of the generator (44_grain.md R112). -/
def prngNext (x : BitVec 32) : BitVec 32 := x * 1664525 + 1013904223

/-- The draw a generator state gives (44_grain.md R112). -/
def prngDraw (x : BitVec 32) : Nat := x.toNat >>> 16

/-! ## Length and pitch (44_grain.md R114) -/

/-- The source ratio of a grain spawned now (44_grain.md R114). -/
def grainRatio (s : State) : Nat := pitchRatio s.p[2].toInt

/-- The length of a grain spawned now (44_grain.md R114). -/
def grainLength (s : State) : Int :=
  let ratio : Int := grainRatio s
  let lmax := (((s.rings[0].n.toNat : Int) - 8) * 65536) / (2 * ratio + 65536)
  min (grainSize s.p[1].toNat) lmax

/-! ## The spawn decision (44_grain.md R115) -/

/-- Samples between grain starts (44_grain.md R115). -/
def spawnPeriod (len : Int) (overlap : Nat) : Nat := (max 1 ((len * 32768) / (overlap : Int))).toNat

/-- The outcome of the spawn decision: how many grains, the generator, the counter. -/
structure SpawnDecision where
  count : Nat
  prng : BitVec 32
  ctr : BitVec 32
deriving DecidableEq, Repr

/-- The spawn decision for a block of `ni` samples (44_grain.md R115). -/
def spawnDecision (s : State) (ni : Nat) : SpawnDecision :=
  let len := grainLength s
  let period := spawnPeriod len s.drv.overlap.toNat
  let base : SpawnDecision :=
    if s.drv.det then
      let ctr := s.grains.spawnCtr.toNat + ni
      ⟨min (ctr / period) Config.maxGrains, s.grains.prng, BitVec.ofNat 32 (ctr % period)⟩
    else
      let g := prngNext s.grains.prng
      let q := ni * 65536 / period
      ⟨min (q >>> 16 + (if prngDraw g < q % 65536 then 1 else 0)) Config.maxGrains, g, 0⟩
  let forced := if s.trigger then max base.count 1 else base.count
  { base with count := if len < Config.grainMinLen then 0 else forced }

/-! ## Spawning (44_grain.md R116) -/

/-- The lowest slot from `k` on that is not active. -/
def freeSlot : Nat → List GrainSlot → Option Nat
  | _, [] => none
  | k, g :: rest => if g.active then freeSlot (k + 1) rest else some k

/-- The grain a spawn with pan draw `rp` starts (44_grain.md R116). -/
def spawnedGrain (s : State) (rp : Nat) : GrainSlot :=
  let ratio : Int := grainRatio s
  let len := grainLength s
  let n : Int := s.rings[0].n.toNat
  let lsrc := ((len * ratio) >>> 16) + 1
  let span := n - 4 - 2 * lsrc - len
  let d := lsrc + 2 + (((s.p[0].toNat : Int) * span) >>> 15)
  let pan := 16384 + ((((rp : Int) - 32768) * (s.p[6].toNat : Int)) >>> 16)
  { active := true
    startHi := BitVec.ofInt 24 (((s.rings[0].wcur.toNat : Int) - 1 - d) % n)
    startLo := 0
    phase := 0
    len := BitVec.ofInt 16 len
    ratio := BitVec.ofInt 21 ratio
    gainL := BitVec.ofInt 16 (min 32768 (2 * (32768 - pan)))
    gainR := BitVec.ofInt 16 (min 32768 (2 * pan)) }

/-- Spawning `count` grains (44_grain.md R116): one draw each, into the lowest free slot; a full pool stops it. -/
def spawnGrains (s : State) : Nat → GrainPool → GrainPool
  | 0, g => g
  | count + 1, g =>
    match freeSlot 0 g.slots.toList with
    | none => g
    | some k =>
      let x := prngNext g.prng
      spawnGrains s count { g with prng := x, slots := g.slots.setIfInBounds k (spawnedGrain s (prngDraw x)) }

/-! ## Synthesis (44_grain.md R118) -/

/-- The envelope of a grain at its phase (44_grain.md R118). -/
def grainEnvelope (shape : Nat) (g : GrainSlot) : Int :=
  let e := (g.phase.toNat <<< 16) / g.len.toNat
  let tri : Int := if e < 32768 then (e : Int) else 65536 - (e : Int)
  tri + (((windowAt e - tri) * (shape : Int)) >>> 15)

/-- The 40-bit position of a grain at its phase (44_grain.md R118). -/
def grainPosition (g : GrainSlot) : Nat :=
  (g.startHi.toNat <<< 16) + g.startLo.toNat + g.phase.toNat * g.ratio.toNat

/-- What an active grain adds to a channel that reads ring `src` with gain `gain` (44_grain.md R118). -/
def grainTerm (s : State) (src : Fin 2) (g : GrainSlot) (gain : Half) : Int :=
  let pos := grainPosition g
  let x := rbReadAbs s src ((pos >>> 16) % s.rings[0].n.toNat) (pos % 65536)
  (((x * grainEnvelope s.drv.shape.toNat g) >>> 15) * (gain.toNat : Int)) >>> 15

/-- The ring the right channel reads: `RB[1]` in stereo, `RB[0]` in mono (44_grain.md R118). -/
def rightSource (s : State) : Fin 2 := if s.mono then 0 else 1

/-- The sums of both channels over the active slots, in slot order (44_grain.md R118). -/
def grainSums (s : State) : List GrainSlot → Int × Int
  | [] => (0, 0)
  | g :: rest =>
    let sums := grainSums s rest
    if g.active then
      (grainTerm s 0 g g.gainL + sums.1, grainTerm s (rightSource s) g g.gainR + sums.2)
    else sums

/-- A slot after one output sample (44_grain.md R118). -/
def grainAdvance (g : GrainSlot) : GrainSlot :=
  if g.active then
    { g with
      phase := g.phase + 1
      active := decide (g.phase.toNat + 1 < g.len.toNat) }
  else g

/-- The output of one sample (44_grain.md R118): `norm` is `1 / overlap`. -/
def grainFrame (s : State) (slots : Vector GrainSlot Config.maxGrains) : Frame :=
  let norm : Int := (32768 * 32768 / s.drv.overlap.toNat : Nat)
  let sums := grainSums s slots.toList
  ⟨toHalf (sat16 ((sums.1 * norm) >>> 15)), toHalf (sat16 ((sums.2 * norm) >>> 15))⟩

/-- The output of `ni` samples and the slots after them (44_grain.md R118). -/
def grainSynth (s : State) : Nat → Vector GrainSlot Config.maxGrains → Vector GrainSlot Config.maxGrains × List Frame
  | 0, slots => (slots, [])
  | ni + 1, slots =>
    let rest := grainSynth s ni (mapVector grainAdvance slots)
    (rest.1, grainFrame s slots :: rest.2)

/-- `GRAIN_PLAY(ni)` (44_grain.md R119): the pool and the internal block. -/
def grainPlay (s : State) (ni : Nat) : GrainPool × List Frame :=
  let d := spawnDecision s ni
  let spawned := spawnGrains s d.count { s.grains with prng := d.prng, spawnCtr := d.ctr }
  let out := grainSynth s ni spawned.slots
  ({ spawned with slots := out.1 }, out.2)

end Sys2Proof.Machine
end

