-- ==== Sys2Proof/Machine/Spectral.lean ====
section
/-! DEFINITION. The spectral phase-vocoder kernel (46_spectral.md): the four derived parameters and the calls of the open
kernel in `PROCESS` and `PREPARE`. -/

namespace Sys2Proof.Machine

/-- `DRV_REFRESH` of the density (46_spectral.md R130). -/
def deriveRefresh (dens : Nat) : Nat := 328 + ((dens * 32440) >>> 15)

/-- `DRV_WARP` of the size (46_spectral.md R130). -/
def deriveWarp (size : Nat) : Int :=
  let x : Int := (size : Int) - 16384
  16384 + 4 * ((((x * x) >>> 15) * x) >>> 15)

/-- `DRV_PHRAND` of the density (46_spectral.md R130). -/
def derivePhrand (dens : Nat) : Int :=
  let r : Int := (dens : Int) - 16384
  clamp (((((r * r) >>> 15) * 137626) >>> 15) - 1638) 0 32768

/-- Step 6 of `PROCESS` in mode 3 (46_spectral.md R133): the state and the internal block. -/
def spectralPlay (s : State) (x : List Frame) (ni : Nat) : State × List Frame :=
  let out := Config.pvPlay s.kernels.pv s.kparams x ni
  ({ s with kernels := { s.kernels with pv := out.1 } }, out.2.toList)

/-- The background step of `PREPARE` in mode 3 (46_spectral.md R134). -/
def spectralBackground (s : State) : State :=
  { s with kernels := { s.kernels with pv := Config.pvBuffer s.kernels.pv s.kparams } }

end Sys2Proof.Machine
end

