-- ==== Sys2Proof/Machine/Wsola.lean ====
section
/-! DEFINITION. The WSOLA stretch core (45_wsola.md): handing a finished search to `WSOLA_PLAY`, posting one, and the search
that `PREPARE` advances. The three functions of the family are open (R124). -/

namespace Sys2Proof.Machine

/-- The result the next `WSOLA_PLAY` gets (45_wsola.md R126). -/
def searchResult (w : Search) : Option SearchResult := if w.done then some ⟨w.bestOffset, w.bestScore⟩ else none

/-- The search registers after a play that posted a count or nothing (45_wsola.md R126). A post `c` asks for `c.val + 1`
candidates. -/
def searchAfterPlay (w : Search) (post : Option (Fin Config.wsCandMax)) : Search :=
  match post with
  | some c => ⟨true, false, 0, BitVec.ofNat 16 (c.val + 1), 0, 0⟩
  | none => { w with done := false }

/-- One candidate evaluated (45_wsola.md R127): ties keep the lower index. -/
def searchCandidate (score : Half → Word) (w : Search) : Search :=
  let x := score w.candIdx
  if w.candIdx = 0 ∨ w.bestScore.toInt < x.toInt then
    { w with bestScore := x, bestOffset := w.candIdx, candIdx := w.candIdx + 1 }
  else { w with candIdx := w.candIdx + 1 }

/-- A number of candidates evaluated in turn (45_wsola.md R127). -/
def searchCandidates (score : Half → Word) : Nat → Search → Search
  | 0, w => w
  | k + 1, w => searchCandidates score k (searchCandidate score w)

/-- A search whose last candidate has been evaluated is done (45_wsola.md R127). -/
def searchFinish (w : Search) : Search :=
  if w.candIdx = w.candCount then { w with pending := false, done := true } else w

/-- The background step of one `PREPARE` (45_wsola.md R127), for a scoring function: at most `per` candidates. -/
def searchStep (per : Nat) (score : Half → Word) (w : Search) : Search :=
  if w.pending then searchFinish (searchCandidates score (min per (w.candCount.toNat - w.candIdx.toNat)) w)
  else w

/-- Step 6c of `PROCESS` in mode 1 (45_wsola.md R126): the state and the internal block. -/
def stretchPlay (s : State) (ni : Nat) : State × List Frame :=
  let out := Config.wsolaPlay s.kernels.wsola (rbViews s) s.kparams ni (searchResult s.search)
  ({ s with
      kernels := { s.kernels with wsola := out.1 }
      search := searchAfterPlay s.search out.2.2 }, out.2.1.toList)

/-- The background step of `PREPARE` in mode 1 (45_wsola.md R127). -/
def stretchBackground (s : State) : State :=
  { s with search := searchStep s.hw.wsCandPerPrepare (Config.wsolaSimilarity s.kernels.wsola (rbViews s)) s.search }

end Sys2Proof.Machine
end

