-- ==== Sys2Proof/Machine/Sequencer.lean ====
section
/-! DEFINITION. The sequencer (48_sequencer.md): `PREPARE` with the arena partition (20_memory.md R50), and the twelve steps of
`PROCESS`. A temporary block of frames is a list until a rule stores it or hands it to a full-rate kernel. -/

namespace Sys2Proof.Machine

/-! ## The decision of PREPARE (48_sequencer.md R151) -/

/-- What a `PREPARE` does (48_sequencer.md R151). -/
inductive PrepareKind where
  | full
  | light
  | none
deriving DecidableEq, Repr

/-- Neither the old nor the new mode is Spectral, and the old one is a real mode (48_sequencer.md R151). -/
def benignChange (prev : Option Mode) (next : Mode) : Bool :=
  match prev with
  | some m => decide (m ≠ .spectral) && decide (next ≠ .spectral)
  | none => false

/-- The decision (48_sequencer.md R151). -/
def prepareKind (s : State) : PrepareKind :=
  let changed := decide (s.prevMode ≠ some s.mode)
  if s.resetPending || (changed && !benignChange s.prevMode s.mode) then .full
  else if changed then .light
  else .none

/-! ## The arena partition (20_memory.md R50) -/

/-- A partition: the size of each ring buffer region (both start at 0, `RB[0]` in `LARGE`), whether `RB[1]` is bound (in
`SMALL`), and the workspace. -/
structure Partition where
  ringSize : BitVec 24
  stereo : Bool
  wsSpace : Space
  wsBase : BitVec 24
  wsSize : BitVec 24
deriving DecidableEq, Repr

/-- A byte count with its lowest bit dropped, `size & ~1` (20_memory.md R50). -/
def evenSize (size : BitVec 24) : BitVec 24 := size &&& 0xFFFFFE

/-- The partition `MODE` and `QUALITY` ask for, if it fits (20_memory.md R50). -/
def partition? (s : State) : Option Partition :=
  let plan : Partition :=
    if s.mono then ⟨evenSize s.large.size, false, .small, 0, s.small.size⟩
    else ⟨evenSize s.small.size, true, .large, s.small.size, s.large.size - s.small.size⟩
  if !s.mono && decide (s.large.size.toNat < s.small.size.toNat) then none
  else if capacity s.format plan.ringSize.toNat < Config.seqNMin then none
  else if plan.wsSize.toNat < s.hw.wsReq s.mode then none
  else some plan

/-! ## Resets (48_sequencer.md R152, R153, R154) -/

/-- The kernel states an engine init of a mode leaves (48_sequencer.md R154). -/
def engineKernels (k : Kernels) (a : KArgs) : Mode → Kernels
  | .granular => k
  | .stretch => { k with wsola := Config.wsolaInit a }
  | .loopingDelay => { k with loop := Config.loopInit a }
  | .spectral => { k with pv := Config.pvInit a }

/-- `ENGINE_INIT(MODE)` (48_sequencer.md R154). -/
def engineInit (s : State) : State :=
  { s with
    loopSync := false
    search := Search.idle
    grains := if s.mode = .granular then GrainPool.fresh else s.grains
    kernels := engineKernels s.kernels s.kargs s.mode }

/-- The ring buffers and the workspace of a partition (48_sequencer.md R152): unbind both, bind the planned ones, give the
rest of the plan to the workspace, whose bytes become unspecified (20_memory.md R52). -/
def carve (s : State) (plan : Partition) : State :=
  let s := rbUnbind (rbUnbind s 0) 1
  let s := rbBind s 0 .large s.format 0 plan.ringSize
  let s := if plan.stereo then rbBind s 1 .small s.format 0 plan.ringSize else s
  let s := { s with wsSpace := plan.wsSpace, wsBase := plan.wsBase, wsSize := plan.wsSize }
  s.mapMem plan.wsSpace (·.forget plan.wsBase.toNat plan.wsSize.toNat)

/-- The full re-partition (48_sequencer.md R152). -/
def fullReset (s : State) (plan : Partition) : State :=
  let s := { s with p := s.p.set 9 (s.p[9] &&& 0xFFFE) }
  let s := carve s plan
  let s := { s with
    svfs := clearAllSvf s.svfs
    upPrev := Frame.zero
    kernels := { s.kernels with
      diff := Config.diffInit s.kargs
      ps := Config.psInit s.kargs
      rev := Config.revInit s.kargs } }
  let s := engineInit s
  { s with resetPending := false, prevMode := some s.mode }

/-- The lightweight reset (48_sequencer.md R153). -/
def lightReset (s : State) : State :=
  let s := { s with
    svfs := clearAllSvf s.svfs
    kernels := { s.kernels with ps := Config.psInit s.kargs } }
  let s := engineInit s
  { s with prevMode := some s.mode }

/-- The background work on the committed mode (48_sequencer.md R155). -/
def background (s : State) : State :=
  match s.prevMode with
  | some .stretch => stretchBackground s
  | some .spectral => spectralBackground s
  | _ => s

/-- `PREPARE` (48_sequencer.md R150). -/
def execPrepare (s : State) : Result :=
  unlessFaulted s <|
  if !s.inited then raise .sequence 0 (encode .prepare) s
  else
    match prepareKind s with
    | .full =>
      match partition? s with
      | some plan => complete none (background (fullReset s plan))
      | none => raise .arena 0 (encode .prepare) s
    | .light => complete none (background (lightReset s))
    | .none => complete none (background s)

/-! ## PROCESS steps 3 to 5a (48_sequencer.md R159, R160, R161) -/

/-- Step 3, one frame (48_sequencer.md R159). -/
def downmixFrame (mono : Bool) (f : Frame) : Frame :=
  if mono then
    let m := toHalf ((f.l.toInt + f.r.toInt) >>> 1)
    ⟨m, m⟩
  else f

/-- Step 3 (48_sequencer.md R159): the block `W`. -/
def downmix (s : State) : List Frame := (blockOf s.blockSize s.inbuf).toList.map (downmixFrame s.mono)

/-- The freeze follower after one block (48_sequencer.md R160). -/
def freezeFollow (frozen : Bool) (lp : Half) : Half :=
  let tgt : Int := if frozen then 32768 else 0
  let d := tgt - (lp.toNat : Int)
  if 0 < d then toHalf ((lp.toNat : Int) + (d + Config.frzDiv - 1) / Config.frzDiv)
  else if d < 0 then toHalf ((lp.toNat : Int) - (-d + Config.frzDiv - 1) / Config.frzDiv)
  else lp

/-- The feedback gain (48_sequencer.md R160). -/
def feedbackGain (fb lp : Half) : Int := ((fb.toNat : Int) * (32768 - (lp.toNat : Int))) >>> 15

/-- The cutoff of the feedback high-pass (48_sequencer.md R160): 20 Hz in cycles per sample. -/
def feedbackCutoff (sr : Word) : Nat := clampNat (Config.fbHpHz * 65536 / sr.toNat) 1 Config.fMax

/-- Step 4, one sample of one channel (48_sequencer.md R160). -/
def feedbackSample (gain : Int) (v : Svf) (fb w : Half) : Svf × Half :=
  let v' := svfStep v fb.toInt
  (v', toHalf (sat16 (w.toInt + ((gain * softLimit v'.hp.toInt) >>> 15))))

/-- Step 4 over a block (48_sequencer.md R160): the two filters and the block `W`. -/
def feedbackBlock (gain : Int) : Svf → Svf → List Frame → List Frame → Svf × Svf × List Frame
  | vl, vr, f :: fs, w :: ws =>
    let l := feedbackSample gain vl f.l w.l
    let r := feedbackSample gain vr f.r w.r
    let rest := feedbackBlock gain l.1 r.1 fs ws
    (rest.1, rest.2.1, ⟨l.2, r.2⟩ :: rest.2.2)
  | vl, vr, _, _ => (vl, vr, [])

/-- Step 4 (48_sequencer.md R160). -/
def feedbackStage (s : State) (w : List Frame) : State × List Frame :=
  let lp := freezeFollow s.frozen s.freezeLp
  let cut := feedbackCutoff s.sr
  let out := feedbackBlock (feedbackGain s.p[7] lp) (svfSet s.svfs[0] cut 65536) (svfSet s.svfs[1] cut 65536)
    (blockOf s.blockSize s.fbbuf).toList w
  ({ s with freezeLp := lp, svfs := (s.svfs.set 0 out.1).set 1 out.2.1 }, out.2.2)

/-- Step 5a over a block in low fidelity (48_sequencer.md R161): every second low-pass output is kept. -/
def decimateBlock : Svf → Svf → List Frame → Svf × Svf × List Frame
  | vl, vr, f :: g :: rest =>
    let l := svfStep (svfStep vl f.l.toInt) g.l.toInt
    let r := svfStep (svfStep vr f.r.toInt) g.r.toInt
    let more := decimateBlock l r rest
    (more.1, more.2.1, ⟨toHalf (sat16 l.lp.toInt), toHalf (sat16 r.lp.toInt)⟩ :: more.2.2)
  | vl, vr, _ => (vl, vr, [])

/-- The internal block length `ni` (48_sequencer.md R161). -/
def State.internalLength (s : State) : Nat := if s.lofi then s.blockSize / 2 else s.blockSize

/-- Step 5a (48_sequencer.md R161): the block `I`. -/
def decimateStage (s : State) (w : List Frame) : State × List Frame :=
  if s.lofi then
    let out := decimateBlock (svfSet s.svfs[2] Config.fidF Config.fidQ) (svfSet s.svfs[3] Config.fidF Config.fidQ) w
    ({ s with svfs := (s.svfs.set 2 out.1).set 3 out.2.1 }, out.2.2)
  else (s, w)

/-! ## PROCESS steps 6a to 6c (48_sequencer.md R162, R163, R164) -/

/-- The diffusion amount (48_sequencer.md R162). -/
def deriveDiff (mode : Mode) (tex dens : Nat) : Nat :=
  if mode = .granular then (if 24576 < tex then (tex - 24576) * 4 else 0) else dens

/-- The reverb amount (48_sequencer.md R170). -/
def deriveReverb (reverb fb lp : Nat) : Nat := min (((reverb * 31130) >>> 15) + ((((fb * fb) >>> 15) * lp) >>> 15)) 32768

/-- The nine derived parameters (48_sequencer.md R162). -/
def derived (s : State) : Derived :=
  let dens := s.p[3].toNat
  let tex := s.p[4].toNat
  { overlap := BitVec.ofNat 19 (deriveOverlap dens)
    shape := BitVec.ofNat 16 (deriveShape tex)
    det := deriveDet dens
    diff := BitVec.ofNat 16 (deriveDiff s.mode tex dens)
    quant := BitVec.ofNat 16 tex
    refresh := BitVec.ofNat 16 (deriveRefresh dens)
    warp := toHalf (deriveWarp s.p[1].toNat)
    phrand := toHalf (derivePhrand dens)
    reverb := BitVec.ofNat 16 (deriveReverb s.p[8].toNat s.p[7].toNat s.freezeLp.toNat) }

/-- Step 6a (48_sequencer.md R162). -/
def deriveStage (s : State) : State := { s with drv := derived s }

/-- Step 6b (48_sequencer.md R163): the ring buffers record the internal block, but not in Spectral mode. -/
def recordStage (s : State) (x : List Frame) : State :=
  if s.mode = .spectral then s
  else
    let t := rbWrite s 0 (x.map (·.l)) (!s.frozen)
    if s.mono then t else rbWrite t 1 (x.map (·.r)) (!s.frozen)

/-- Mode 2 of step 6c (48_sequencer.md R164, R172). -/
def loopPlay (s : State) (ni : Nat) : State × List Frame :=
  let out := Config.loopPlay s.kernels.loop (rbViews s) s.kparams ni
  ({ s with kernels := { s.kernels with loop := out.1 }, loopSync := out.2.2 }, out.2.1.toList)

/-- Step 6c (48_sequencer.md R164): the active engine plays the block `E`. -/
def playStage (s : State) (x : List Frame) : State × List Frame :=
  match s.mode with
  | .granular =>
    let out := grainPlay s s.internalLength
    ({ s with grains := out.1 }, out.2)
  | .stretch => stretchPlay s s.internalLength
  | .loopingDelay => loopPlay s s.internalLength
  | .spectral => spectralPlay s x s.internalLength

/-! ## PROCESS steps 5b to 12 (48_sequencer.md R165 to R171) -/

/-- The half-way sample of the 2x upsampler (48_sequencer.md R165). -/
def midSample (a b : Half) : Half := toHalf ((a.toInt + b.toInt) >>> 1)

/-- Step 5b over a block in low fidelity (48_sequencer.md R165): the last internal frame and the full-rate block. -/
def upsampleBlock : Frame → List Frame → Frame × List Frame
  | prev, [] => (prev, [])
  | prev, e :: rest =>
    let more := upsampleBlock e rest
    (more.1, ⟨midSample prev.l e.l, midSample prev.r e.r⟩ :: e :: more.2)

/-- Step 5b (48_sequencer.md R165): the block `U`. -/
def upsampleStage (n : Nat) (s : State) (e : List Frame) : State × Vector Frame n :=
  if s.lofi then
    let out := upsampleBlock s.upPrev e
    ({ s with upPrev := out.1 }, blockOf n out.2)
  else (s, blockOf n e)

/-- Step 7 (48_sequencer.md R166). -/
def diffuseStage {n : Nat} (s : State) (u : Vector Frame n) : State × Vector Frame n :=
  if s.mode = .spectral then (s, u)
  else
    let out := Config.diffProcess s.kernels.diff s.drv.diff n u
    ({ s with kernels := { s.kernels with diff := out.1 } }, out.2)

/-- Step 8 (48_sequencer.md R167). -/
def pitchStage {n : Nat} (s : State) (u : Vector Frame n) : State × Vector Frame n :=
  if s.mode = .loopingDelay ∧ (s.frozen = false ∨ s.loopSync = true) then
    let out := Config.psProcess s.kernels.ps (pitchRatio s.p[2].toInt) s.p[1] n u
    ({ s with kernels := { s.kernels with ps := out.1 } }, out.2)
  else (s, u)

/-- The low-pass cutoff of the tone shaping (48_sequencer.md R168). -/
def toneLowPass (tex : Nat) : Nat :=
  let tl : Int := (max tex 16384 - 16384 : Nat)
  clampNat ((32768 * pitchRatio (-((tl * 3) >>> 1))) >>> 16) 1 Config.fMax

/-- The high-pass cutoff of the tone shaping (48_sequencer.md R168). -/
def toneHighPass (tex : Nat) : Nat :=
  let th : Int := (min tex 16384 : Nat)
  clampNat ((16384 * pitchRatio (-((th * 3) >>> 1))) >>> 16) 1 Config.fMax

/-- The Q of the tone-shaping low-pass (48_sequencer.md R168). -/
def toneQ (fb lpf : Nat) : Nat := (65536 + 3 * (((32768 - (fb : Int)) * (32768 - (lpf : Int))) >>> 15)).toNat

/-- Step 9, one sample of one channel (48_sequencer.md R168): low-pass into high-pass. -/
def toneSample (lp hp : Svf) (x : Half) : Svf × Svf × Half :=
  let lp' := svfStep lp x.toInt
  let hp' := svfStep hp lp'.lp.toInt
  (lp', hp', toHalf (sat16 hp'.hp.toInt))

/-- Step 9 on one channel of a block (48_sequencer.md R168). -/
def toneChannel : Svf → Svf → List Half → Svf × Svf × List Half
  | lp, hp, [] => (lp, hp, [])
  | lp, hp, x :: rest =>
    let y := toneSample lp hp x
    let more := toneChannel y.1 y.2.1 rest
    (more.1, more.2.1, y.2.2 :: more.2.2)

/-- The frames of a left and a right channel. -/
def zipFrames : List Half → List Half → List Frame
  | l :: ls, r :: rs => ⟨l, r⟩ :: zipFrames ls rs
  | _, _ => []

/-- Step 9 (48_sequencer.md R168). -/
def toneStage {n : Nat} (s : State) (u : Vector Frame n) : State × Vector Frame n :=
  if s.mode = .stretch ∨ s.mode = .loopingDelay then
    let tex := s.p[4].toNat
    let lpf := toneLowPass tex
    let hpf := toneHighPass tex
    let q := toneQ s.p[7].toNat lpf
    let l := toneChannel (svfSet s.svfs[4] lpf q) (svfSet s.svfs[6] hpf 65536) (u.toList.map (·.l))
    let r := toneChannel (svfSet s.svfs[5] lpf q) (svfSet s.svfs[7] hpf 65536) (u.toList.map (·.r))
    ({ s with svfs := (((s.svfs.set 4 l.1).set 5 r.1).set 6 l.2.1).set 7 r.2.1 }, blockOf n (zipFrames l.2.2 r.2.2))
  else (s, u)

/-- Step 11 (48_sequencer.md R170). -/
def reverbStage {n : Nat} (s : State) (u : Vector Frame n) : State × Vector Frame n :=
  let out := Config.revProcess s.kernels.rev s.drv.reverb s.p[7] n u
  ({ s with kernels := { s.kernels with rev := out.1 } }, out.2)

/-- Step 12 (48_sequencer.md R171, 43_limiter_crossfade.md R109). -/
def mixStage {n : Nat} (s : State) (u : Vector Frame n) : State :=
  { s with
    outbuf := (mixBlock s.dwPrev.toNat s.p[5].toNat s.inbuf u).toList
    dwPrev := s.p[5] }

/-- Steps 3 to 6a of `PROCESS`: the state and the internal block `I`. -/
def processInput (s : State) : State × List Frame :=
  let a := feedbackStage s (downmix s)
  let b := decimateStage a.1 a.2
  (deriveStage b.1, b.2)

/-- Steps 6b, 6c and 5b of `PROCESS` for a block of `n` frames: the state and the block `U`. -/
def processPlay (n : Nat) (s : State) (x : List Frame) : State × Vector Frame n :=
  let a := playStage (recordStage s x) x
  upsampleStage n a.1 a.2

/-- Steps 7 to 12 of `PROCESS`; step 10 stores the block as the next feedback source (48_sequencer.md R169). -/
def processEffects {n : Nat} (s : State) (u : Vector Frame n) : State :=
  let a := diffuseStage s u
  let b := pitchStage a.1 a.2
  let c := toneStage b.1 b.2
  let d := reverbStage { c.1 with fbbuf := c.2.toList } c.2
  mixStage d.1 d.2

/-- Steps 3 to 12 of `PROCESS` (48_sequencer.md R156). -/
def processBlock (s : State) : State :=
  let a := processInput s
  let b := processPlay s.blockSize a.1 a.2
  processEffects b.1 b.2

/-- The twelve steps of `PROCESS` (48_sequencer.md R156): bypass (R157), the silence gate (R158), or the pipeline. -/
def processSteps (s : State) : State :=
  if s.bypass then { s with outbuf := s.inbuf }
  else if s.gated then { s with outbuf := zeroBlock s.blockSize }
  else processBlock s

/-- `PROCESS size` (48_sequencer.md R156). -/
def execProcess (size : BitVec 16) (s : State) : Result :=
  unlessFaulted s <|
  if !s.inited then raise .sequence 0 (encode (.process size)) s
  else if size.toNat ≠ s.blockSize then raise .operand size.toNat (encode (.process size)) s
  else complete none (processSteps s)

end Sys2Proof.Machine
end

