-- ==== Sys2Proof/Machine/Dispatch.lean ====
section
/-! DEFINITION. exec: one arm per command (30_encoding.md R65), each one direct call of its meaning. -/

namespace Sys2Proof.Machine

def exec (i : Instr) (s : State) : Host.Outcome State Fault Refusal :=
  match i with
  | .nop => Sys2Proof.Machine.execNop s
  | .csrr addr => Sys2Proof.Machine.execCsrr addr s
  | .arena which size => Sys2Proof.Machine.execArena which size s
  | .tblinit sampleRate => Sys2Proof.Machine.execTblinit sampleRate s
  | .init sampleRate => Sys2Proof.Machine.execInit sampleRate s
  | .pset index value => Sys2Proof.Machine.execPset index value s
  | .setmode mode => Sys2Proof.Machine.execSetmode mode s
  | .setqual quality => Sys2Proof.Machine.execSetqual quality s
  | .setsil flag => Sys2Proof.Machine.execSetsil flag s
  | .setbyp flag => Sys2Proof.Machine.execSetbyp flag s
  | .rstbuf => Sys2Proof.Machine.execRstbuf s
  | .prepare => Sys2Proof.Machine.execPrepare s
  | .process size => Sys2Proof.Machine.execProcess size s
  | .framew index left right => Sys2Proof.Machine.execFramew index left right s
  | .framer index => Sys2Proof.Machine.execFramer index s
  | .peek space addr => Sys2Proof.Machine.execPeek space addr s
  | .rbinit inst space enc base size => Sys2Proof.Machine.execRbinit inst space enc base size s
  | .rbwf inst allow count stride src => Sys2Proof.Machine.execRbwf inst allow count stride src s
  | .rbrd inst offset frac => Sys2Proof.Machine.execRbrd inst offset frac s
  | .svfrst inst => Sys2Proof.Machine.execSvfrst inst s
  | .svfset inst f q => Sys2Proof.Machine.execSvfset inst f q s
  | .svfstep inst x => Sys2Proof.Machine.execSvfstep inst x s
  | .lim x => Sys2Proof.Machine.execLim x s
  | .xfade dw dry wet => Sys2Proof.Machine.execXfade dw dry wet s

end Sys2Proof.Machine
end

