-- ==== Sys2Proof/Machine/Step.lean ====
section
/-! DEFINITION. One step of the block: it consumes the next event at its ports (10_state.md R14, 20_memory.md R55,
70_reset_and_hazards.md R193). -/

namespace Sys2Proof.Machine

/-- One step. With no event waiting the block is idle (70_reset_and_hazards.md R200; log entry 8). A reset event resets
(R192). A command word runs the command it selects (30_encoding.md R65), or is an illegal command (60_exceptions.md R181). -/
def step (s : State) : Host.Outcome State Fault Refusal :=
  match nextEvent s with
  | none => .next s
  | some (.reset, s') => .next (hardwareReset s')
  | some (.command w, s') =>
    match decode w with
    | .ok i => exec i s'
    | .error _ => illegalCommand w s'

/-- The state with an opcode-table word presented as the next command: the host puts it on `CMD` (log entry 8). -/
def State.withFetchWord (s : State) (nbits w : Nat) : State := s.present (BitVec.ofNat 64 (w % 2 ^ nbits))

end Sys2Proof.Machine
end

