-- ==== Sys2Proof/Safety.lean ====
section
/-! DEFINITION. The vocabulary of the claims: the opcode rows of 30_encoding.md R65, the fault tables of 60_exceptions.md R182
to R185 with their priority (R188), where a sample lies in its arena, and the invariant of a run in its parts. -/

namespace Sys2Proof.Machine

/-! ## The opcode map (30_encoding.md R65) -/

/-- One row of the opcode map: a word `w` is the row's command when `w AND mask` is `pattern`. -/
structure CommandRow where
  mask : Cmd
  pattern : Cmd
deriving DecidableEq, Repr

/-- The 24 rows of the opcode map (30_encoding.md R65), in its order. -/
def commandRows : List CommandRow :=
  [⟨0xFFFFFFFFFFFFFFFF, 0x0000000000000000⟩, ⟨0xFFFF0000FFFFFFFF, 0x0100000000000000⟩,
   ⟨0xFFFEFFFF00000000, 0x0200000000000000⟩, ⟨0xFFFFFFFF00000000, 0x0300000000000000⟩,
   ⟨0xFFFFFFFF00000000, 0x0400000000000000⟩, ⟨0xFF000000FFFFFFFF, 0x0500000000000000⟩,
   ⟨0xFF00FFFFFFFFFFFF, 0x0600000000000000⟩, ⟨0xFF00FFFFFFFFFFFF, 0x0700000000000000⟩,
   ⟨0xFFFEFFFFFFFFFFFF, 0x0800000000000000⟩, ⟨0xFFFEFFFFFFFFFFFF, 0x0900000000000000⟩,
   ⟨0xFFFFFFFFFFFFFFFF, 0x0A00000000000000⟩, ⟨0xFFFFFFFFFFFFFFFF, 0x0B00000000000000⟩,
   ⟨0xFFFF0000FFFFFFFF, 0x0C00000000000000⟩, ⟨0xFFFF000000000000, 0x0D00000000000000⟩,
   ⟨0xFFFF0000FFFFFFFF, 0x0E00000000000000⟩, ⟨0xFFFEFFFF00000000, 0x0F00000000000000⟩,
   ⟨0xFFF8000000000000, 0x1000000000000000⟩, ⟨0xFFFC000000000000, 0x1100000000000000⟩,
   ⟨0xFFFE000000000000, 0x1200000000000000⟩, ⟨0xFFF8FFFFFFFFFFFF, 0x1800000000000000⟩,
   ⟨0xFFF8000000000000, 0x1900000000000000⟩, ⟨0xFFF8FFFF00000000, 0x1A00000000000000⟩,
   ⟨0xFFFFFFFF00000000, 0x1C00000000000000⟩, ⟨0xFFFF000000000000, 0x1D00000000000000⟩]

/-- A word is legal when some row matches it (60_exceptions.md R181). -/
def legalWord (w : Cmd) : Bool := commandRows.any fun row => decide (w &&& row.mask = row.pattern)

/-- The row of a command in the opcode map. -/
def rowOf : Instr → CommandRow
  | .nop => ⟨0xFFFFFFFFFFFFFFFF, 0x0000000000000000⟩
  | .csrr _ => ⟨0xFFFF0000FFFFFFFF, 0x0100000000000000⟩
  | .arena _ _ => ⟨0xFFFEFFFF00000000, 0x0200000000000000⟩
  | .tblinit _ => ⟨0xFFFFFFFF00000000, 0x0300000000000000⟩
  | .init _ => ⟨0xFFFFFFFF00000000, 0x0400000000000000⟩
  | .pset _ _ => ⟨0xFF000000FFFFFFFF, 0x0500000000000000⟩
  | .setmode _ => ⟨0xFF00FFFFFFFFFFFF, 0x0600000000000000⟩
  | .setqual _ => ⟨0xFF00FFFFFFFFFFFF, 0x0700000000000000⟩
  | .setsil _ => ⟨0xFFFEFFFFFFFFFFFF, 0x0800000000000000⟩
  | .setbyp _ => ⟨0xFFFEFFFFFFFFFFFF, 0x0900000000000000⟩
  | .rstbuf => ⟨0xFFFFFFFFFFFFFFFF, 0x0A00000000000000⟩
  | .prepare => ⟨0xFFFFFFFFFFFFFFFF, 0x0B00000000000000⟩
  | .process _ => ⟨0xFFFF0000FFFFFFFF, 0x0C00000000000000⟩
  | .framew _ _ _ => ⟨0xFFFF000000000000, 0x0D00000000000000⟩
  | .framer _ => ⟨0xFFFF0000FFFFFFFF, 0x0E00000000000000⟩
  | .peek _ _ => ⟨0xFFFEFFFF00000000, 0x0F00000000000000⟩
  | .rbinit _ _ _ _ _ => ⟨0xFFF8000000000000, 0x1000000000000000⟩
  | .rbwf _ _ _ _ _ => ⟨0xFFFC000000000000, 0x1100000000000000⟩
  | .rbrd _ _ _ => ⟨0xFFFE000000000000, 0x1200000000000000⟩
  | .svfrst _ => ⟨0xFFF8FFFFFFFFFFFF, 0x1800000000000000⟩
  | .svfset _ _ _ => ⟨0xFFF8000000000000, 0x1900000000000000⟩
  | .svfstep _ _ => ⟨0xFFF8FFFF00000000, 0x1A00000000000000⟩
  | .lim _ => ⟨0xFFFFFFFF00000000, 0x1C00000000000000⟩
  | .xfade _ _ _ => ⟨0xFFFF000000000000, 0x1D00000000000000⟩

/-- The commands that respond (30_encoding.md R61). -/
def responds : Instr → Bool
  | .csrr _ | .framer _ | .peek _ _ | .rbrd _ _ _ | .lim _ | .xfade _ _ _ => true
  | .nop | .arena _ _ | .tblinit _ | .init _ | .pset _ _ | .setmode _ | .setqual _ | .setsil _ | .setbyp _ | .rstbuf
  | .prepare | .process _ | .framew _ _ _ | .rbinit _ _ _ _ _ | .rbwf _ _ _ _ _ | .svfrst _ | .svfset _ _ _
  | .svfstep _ _ => false

/-! ## The fault tables (60_exceptions.md R182 to R185, R188) -/

/-- The table of `SEQUENCE` (60_exceptions.md R182). -/
def sequenceFault (s : State) : Instr → Bool
  | .tblinit _ => s.tablesValid
  | .init _ => !s.tablesValid || s.inited || !s.large.declared || !s.small.declared
  | .arena _ _ => s.inited
  | .rbinit _ space _ _ _ => !s.tablesValid || s.inited || !(s.arena space).declared
  | .rbwf _ _ _ _ _ | .rbrd _ _ _ | .svfrst _ | .svfset _ _ _ | .svfstep _ _ | .lim _ | .xfade _ _ _ => !s.tablesValid
  | .peek space _ => !(s.arena space).declared
  | .prepare | .process _ => !s.inited
  | .nop | .csrr _ | .pset _ _ | .setmode _ | .setqual _ | .setsil _ | .setbyp _ | .rstbuf | .framew _ _ _
  | .framer _ => false

/-- The table of `OPERAND` (60_exceptions.md R183): the offending value. -/
def operandFault (s : State) : Instr → Option Nat
  | .csrr addr => if mappedAddress addr.toNat then none else some addr.toNat
  | .arena _ size => if size.toNat = 0 ∨ 2 ^ 24 ≤ size.toNat then some size.toNat else none
  | .tblinit sr => if sr.toNat = 0 then some 0 else none
  | .init sr => if sr.toNat = 0 then some 0 else none
  | .pset index _ => if 9 < index.toNat then some index.toNat else none
  | .setmode mode => if 3 < mode.toNat then some mode.toNat else none
  | .setqual quality => if 3 < quality.toNat then some quality.toNat else none
  | .process size => if size.toNat ≠ s.blockSize then some size.toNat else none
  | .framew index _ _ => if s.blockSize ≤ index.toNat then some index.toNat else none
  | .framer index => if s.blockSize ≤ index.toNat then some index.toNat else none
  | .peek space addr => if (s.arena space).size.toNat ≤ addr.toNat then some addr.toNat else none
  | .rbwf _ _ count stride src =>
    if 0 < count.toNat ∧ 2 * s.blockSize ≤ src.toNat + (count.toNat - 1) * stride.toNat then
      some (src.toNat + (count.toNat - 1) * stride.toNat)
    else none
  | .xfade dw _ _ => if 32768 < dw.toNat then some dw.toNat else none
  | .nop | .setsil _ | .setbyp _ | .rstbuf | .prepare | .rbinit _ _ _ _ _ | .rbrd _ _ _ | .svfrst _ | .svfset _ _ _
  | .svfstep _ _ | .lim _ => none

/-- The condition of `UNBOUND` (60_exceptions.md R184): the instance. -/
def unboundFault (s : State) : Instr → Option Nat
  | .rbwf inst _ _ _ _ => if s.rings[inst].bound then none else some inst.val
  | .rbrd inst _ _ => if s.rings[inst].bound then none else some inst.val
  | .nop | .csrr _ | .arena _ _ | .tblinit _ | .init _ | .pset _ _ | .setmode _ | .setqual _ | .setsil _ | .setbyp _
  | .rstbuf | .prepare | .process _ | .framew _ _ _ | .framer _ | .peek _ _ | .rbinit _ _ _ _ _ | .svfrst _
  | .svfset _ _ _ | .svfstep _ _ | .lim _ | .xfade _ _ _ => none

/-- `PREPARE` decides on a full re-partition (48_sequencer.md R151). -/
def fullWanted (s : State) : Prop :=
  s.resetPending = true ∨
    (s.prevMode ≠ some s.mode ∧ (s.prevMode = none ∨ s.prevMode = some .spectral ∨ s.mode = .spectral))

/-- `PREPARE` decides on a lightweight reset (48_sequencer.md R151). -/
def lightWanted (s : State) : Prop :=
  s.resetPending = false ∧ s.prevMode ≠ some s.mode ∧ s.prevMode ≠ none ∧ s.prevMode ≠ some .spectral ∧
    s.mode ≠ .spectral

/-- `PREPARE` decides on nothing: the machine is in `Stable` (48_sequencer.md R149, R151). -/
def stable (s : State) : Prop := s.resetPending = false ∧ s.prevMode = some s.mode

/-- Bytes of each ring buffer region of the partition `MODE` and `QUALITY` ask for (20_memory.md R50). -/
def regionBytes (s : State) : Nat := if s.mono then s.large.size.toNat / 2 * 2 else s.small.size.toNat / 2 * 2

/-- Samples of each region of that partition (20_memory.md R50). -/
def regionSamples (s : State) : Nat := if s.lofi then regionBytes s else regionBytes s / 2

/-- Bytes of the workspace of that partition (20_memory.md R50). -/
def workspaceBytes (s : State) : Nat :=
  if s.mono then s.small.size.toNat else s.large.size.toNat - s.small.size.toNat

/-- That partition does not fit (20_memory.md R50). -/
def partitionMisfit (s : State) : Prop :=
  (s.mono = false ∧ s.large.size.toNat < s.small.size.toNat) ∨ regionSamples s < Config.seqNMin ∨
    workspaceBytes s < s.hw.wsReq s.mode

/-- The region of an `RBINIT` does not fit (41_ring_buffer.md R85, 60_exceptions.md R185). -/
def regionMisfit (s : State) (inst : Fin 2) (space : Space) (enc : SampleFormat) (base size : Nat) : Prop :=
  (s.arena space).size.toNat < base + size ∨
  (enc = .linear16 ∧ (base % 2 = 1 ∨ size % 2 = 1)) ∨
  (if enc = .linear16 then size / 2 else size) < Config.tail ∨
  ∃ other : Fin 2, other ≠ inst ∧ s.rings[other].bound = true ∧ s.rings[other].space = space ∧
    base < s.rings[other].base.toNat + s.rings[other].size.toNat ∧ s.rings[other].base.toNat < base + size

/-- The conditions of `ARENA` (60_exceptions.md R185). -/
def arenaFault (s : State) : Instr → Prop
  | .prepare => fullWanted s ∧ partitionMisfit s
  | .rbinit inst space enc base size => regionMisfit s inst space enc base.toNat size.toNat
  | .nop | .csrr _ | .arena _ _ | .tblinit _ | .init _ | .pset _ _ | .setmode _ | .setqual _ | .setsil _ | .setbyp _
  | .rstbuf | .process _ | .framew _ _ _ | .framer _ | .peek _ _ | .rbwf _ _ _ _ _ | .rbrd _ _ _ | .svfrst _
  | .svfset _ _ _ | .svfstep _ _ | .lim _ | .xfade _ _ _ => False

/-- The fault a command raises, by the tables and in the order of 60_exceptions.md R188. -/
inductive Raises (s : State) (i : Instr) : Cause → Nat → Prop where
  | sequence (h : sequenceFault s i = true) : Raises s i .sequence 0
  | operand (v : Nat) (h1 : sequenceFault s i = false) (h2 : operandFault s i = some v) : Raises s i .operand v
  | unbound (v : Nat) (h1 : sequenceFault s i = false) (h2 : operandFault s i = none)
      (h3 : unboundFault s i = some v) : Raises s i .unbound v
  | arena (h1 : sequenceFault s i = false) (h2 : operandFault s i = none) (h3 : unboundFault s i = none)
      (h4 : arenaFault s i) : Raises s i .arena 0

/-- No check of a command raises. -/
def noFault (s : State) (i : Instr) : Prop :=
  sequenceFault s i = false ∧ operandFault s i = none ∧ unboundFault s i = none ∧ ¬ arenaFault s i

/-! ## Where a sample lies -/

/-- Byte `x` of the instance's arena is a byte of sample `a` (20_memory.md R44). -/
def inSample (r : Ring) (a x : Nat) : Prop := sampleAddress r a ≤ x ∧ x < sampleAddress r a + sampleWidth r.enc

/-- Byte `x` of an arena lies in the region of an instance. -/
def inRegion (r : Ring) (sp : Space) (x : Nat) : Prop :=
  r.bound = true ∧ r.space = sp ∧ r.base.toNat ≤ x ∧ x < r.base.toNat + r.size.toNat

/-- Byte `x` of an arena is one of the bytes a write of `count` samples to an instance stores: sample `t` goes to index
`(WCUR + t) mod N` (41_ring_buffer.md R86). -/
def inWrite (r : Ring) (count : Nat) (sp : Space) (x : Nat) : Prop :=
  sp = r.space ∧ ∃ t, t < count ∧ inSample r ((r.wcur.toNat + t) % r.n.toNat) x

/-- What a sample stored with value `v` loads as: itself in 16 bits, the decoded code in mu-law (20_memory.md R45, R46). -/
def codedAs (enc : SampleFormat) (v : Int) : Int :=
  match enc with
  | .linear16 => v
  | .mulaw8 => mulawDecode (mulawEncode v)

/-- The value an open write stores as its `k`-th sample `x` over the old content `old`, when the write fade stood at `fade` before
the write (41_ring_buffer.md R86): a 64-step linear ramp, then `x`. -/
def fadedValue (fade k : Nat) (old x : Int) : Int :=
  if k < fade then old + (x - old) * (65 + (k : Int) - (fade : Int)) / 64 else x

/-! ## The blocks of a `PROCESS` that passes its gate, sample by sample (48_sequencer.md R156)

Each is written from the formula of its rule, for a channel `c` (0 left, 1 right) and a frame `k`, and not from the stage
functions of the machine. -/

/-- The filter instance `2 * pair + c`: pair 0 filters the feedback, pair 1 the decimator's input, pairs 2 and 3 shape the tone
(48_sequencer.md R160, R161, R168). -/
def svfOf (s : State) (pair : Fin 4) (c : Fin 2) : Svf := s.svfs[(⟨2 * pair.val + c.val, by omega⟩ : Fin 8)]

/-- A filter after a run of input samples (42_svf.md R101). -/
def svfRun (v : Svf) (xs : List Int) : Svf := xs.foldl svfStep v

/-- The sample of a channel of a block. -/
def sampleOf (block : List Frame) (c : Fin 2) (k : Nat) : Int := ((block.getD k ⟨0, 0⟩).channel c).toInt

/-- The first `k` samples of a channel of a block. -/
def samplesOf (block : List Frame) (c : Fin 2) (k : Nat) : List Int := (List.range k).map (sampleOf block c)

/-- The mono downmix (48_sequencer.md R159). -/
def downmixedSample (s : State) (c : Fin 2) (k : Nat) : Int :=
  if s.mono then (sampleOf s.inbuf 0 k + sampleOf s.inbuf 1 k) / 2 else sampleOf s.inbuf c k

/-- The feedback filter of a channel after `k` samples of `FBBUF` (48_sequencer.md R160). -/
def feedbackFilter (s : State) (c : Fin 2) (k : Nat) : Svf :=
  svfRun (svfSet (svfOf s 0 c) (min (max (20 * 65536 / s.sr.toNat) 1) 32702) 65536) (samplesOf s.fbbuf c k)

/-- `W[k][c]` after the feedback of step 4 (48_sequencer.md R160). -/
def blendedSample (s : State) (c : Fin 2) (k : Nat) : Int :=
  let gain : Int := (s.p[7].toNat : Int) * (32768 - ((freezeFollow s.frozen s.freezeLp).toNat : Int)) / 32768
  sat16 (downmixedSample s c k + gain * softLimit (feedbackFilter s c (k + 1)).hp.toInt / 32768)

/-- The decimator's filter of a channel after `k` samples, in low fidelity (48_sequencer.md R161). -/
def decimationFilter (s : State) (c : Fin 2) (k : Nat) : Svf :=
  svfRun (svfSet (svfOf s 1 c) 12288 46341) ((List.range k).map (blendedSample s c))

/-- `I[j][c]` after step 5a (48_sequencer.md R161): every second low-pass output in low fidelity. -/
def internalSample (s : State) (c : Fin 2) (j : Nat) : Int :=
  if s.lofi then sat16 (decimationFilter s c (2 * j + 2)).lp.toInt else blendedSample s c j

/-- The internal block `I` of `ni` frames. -/
def internalBlock (s : State) (ni : Nat) : List Frame :=
  (List.range ni).map fun j => ⟨BitVec.ofInt 16 (internalSample s 0 j), BitVec.ofInt 16 (internalSample s 1 j)⟩

/-- `U[k][c]` after step 5b, for the internal block `e` the engine played (48_sequencer.md R165). -/
def upsampledSample (s : State) (e : List Frame) (c : Fin 2) (k : Nat) : Int :=
  if s.lofi = false then sampleOf e c k
  else if k % 2 = 1 then sampleOf e c (k / 2)
  else if k = 0 then ((s.upPrev.channel c).toInt + sampleOf e c 0) / 2
  else (sampleOf e c (k / 2 - 1) + sampleOf e c (k / 2)) / 2

/-- The block `U` after step 5b. -/
def upsampledBlock (s : State) (e : List Frame) (n : Nat) : Vector Frame n :=
  Vector.ofFn fun k : Fin n =>
    ⟨BitVec.ofInt 16 (upsampledSample s e 0 k.val), BitVec.ofInt 16 (upsampledSample s e 1 k.val)⟩

/-- The low-pass cutoff `lpf` of the tone shaping (48_sequencer.md R168). -/
def shapeLowCutoff (s : State) : Nat :=
  let tl : Int := max (s.p[4].toNat : Int) 16384 - 16384
  min (max (32768 * pitchRatio (-(tl * 3 / 2)) / 65536) 1) 32702

/-- The high-pass cutoff `hpf` of the tone shaping (48_sequencer.md R168). -/
def shapeHighCutoff (s : State) : Nat :=
  let th : Int := min (s.p[4].toNat : Int) 16384
  min (max (16384 * pitchRatio (-(th * 3 / 2)) / 65536) 1) 32702

/-- The Q `qlp` of the tone-shaping low-pass (48_sequencer.md R168). -/
def shapeQ (s : State) : Int :=
  65536 + 3 * ((32768 - (s.p[7].toNat : Int)) * (32768 - (shapeLowCutoff s : Int)) / 32768)

/-- The tone-shaping low-pass of a channel after `k` samples of its input (48_sequencer.md R168). -/
def shapeLowFilter (s : State) (u : List Frame) (c : Fin 2) (k : Nat) : Svf :=
  svfRun (svfSet (svfOf s 2 c) (shapeLowCutoff s) (shapeQ s).toNat) (samplesOf u c k)

/-- The tone-shaping high-pass of a channel after `k` samples: it runs on the low-pass outputs (48_sequencer.md R168). -/
def shapeHighFilter (s : State) (u : List Frame) (c : Fin 2) (k : Nat) : Svf :=
  svfRun (svfSet (svfOf s 3 c) (shapeHighCutoff s) 65536)
    ((List.range k).map fun j => (shapeLowFilter s u c (j + 1)).lp.toInt)

/-- The block `U` after the low-pass/high-pass cascade of step 9 (48_sequencer.md R168). -/
def cascadedBlock {n : Nat} (s : State) (u : Vector Frame n) : Vector Frame n :=
  Vector.ofFn fun k : Fin n =>
    ⟨BitVec.ofInt 16 (sat16 (shapeHighFilter s u.toList 0 (k.val + 1)).hp.toInt),
      BitVec.ofInt 16 (sat16 (shapeHighFilter s u.toList 1 (k.val + 1)).hp.toInt)⟩

/-! ## The samples of the grain engine (44_grain.md R118) -/

/-- What the grain of a slot adds to channel `c` at phase `phase`: the instance the channel reads, the position, the envelope and the
gain of R118. -/
def grainVoice (s : State) (g : GrainSlot) (phase : Nat) (c : Fin 2) : Int :=
  let src : Fin 2 := if c = 1 ∧ s.mono = false then 1 else 0
  let pos := g.startHi.toNat * 65536 + g.startLo.toNat + phase * g.ratio.toNat
  let x := rbReadAbs s src (pos / 65536 % s.rings[0].n.toNat) (pos % 65536)
  let e := phase * 65536 / g.len.toNat
  let tri : Int := if e < 32768 then (e : Int) else 65536 - (e : Int)
  let env := tri + (windowAt e - tri) * (s.drv.shape.toNat : Int) / 32768
  x * env / 32768 * ((if c = 0 then g.gainL else g.gainR).toNat : Int) / 32768

/-- `E[j][c]` for the grains that sound in it, each with its phase (44_grain.md R118). -/
def grainSample (s : State) (voices : List (GrainSlot × Nat)) (c : Fin 2) : Int :=
  let acc := (voices.map fun v => grainVoice s v.1 v.2 c).sum
  sat16 (acc * ((32768 * 32768 / s.drv.overlap.toNat : Nat) : Int) / 32768)

/-- The internal block `E` of step 6c: what the active engine plays (48_sequencer.md R164). -/
def engineBlock (s : State) : List Frame :=
  let a := processInput s
  (playStage (recordStage a.1 a.2) a.2).2

/-- How many grain slots below `k` are not active. -/
def idleBelow (g : GrainPool) (k : Nat) : Nat := ((g.slots.toList.take k).filter fun slot => !slot.active).length

/-! ## The invariant of a run, in parts -/

/-- An arena that was not declared has size 0 and a declared one does not (10_state.md R24); its bytes are in canonical form and
a specified byte lies inside it. -/
structure Arena.Ok (a : Arena) : Prop where
  canonical : a.mem.wf = true
  sized : a.declared = true ↔ a.size ≠ 0
  within : ∀ x, (a.mem.get? x).isSome = true → x < a.size.toNat

/-- The life-cycle bits and the fault registers (10_state.md R19, R23, R26). -/
structure LifeOk (s : State) : Prop where
  tables : s.tablesValid = true → s.tblSr ≠ 0
  inited : s.inited = true → s.tablesValid = true ∧ s.large.declared = true ∧ s.small.declared = true ∧ s.sr ≠ 0
  noFault : s.fault = false → s.faultCause = 0 ∧ s.faultInfo = 0 ∧ s.faultCmdLo = 0 ∧ s.faultCmdHi = 0
  cause : s.fault = true → 1 ≤ s.faultCause.toNat ∧ s.faultCause.toNat ≤ 5

/-- The stored ranges of the parameter and pipeline registers (10_state.md R27, R37). -/
structure ParamsOk (s : State) : Prop where
  unit : ∀ k : Fin 10, k ≠ 2 → k ≠ 9 → s.p[k].toNat ≤ 32768
  pitch : -12288 ≤ s.p[2].toInt ∧ s.p[2].toInt ≤ 12288
  flags : s.p[9].toNat ≤ 7
  freezeLp : s.freezeLp.toNat ≤ 32768
  dwPrev : s.dwPrev.toNat ≤ 32768

/-- The ranges of the derived-parameter registers, or all zero (10_state.md R30). -/
def DerivedOk (d : Derived) : Prop :=
  d = ⟨0, 0, false, 0, 0, 0, 0, 0, 0⟩ ∨
    (32768 ≤ d.overlap.toNat ∧ d.overlap.toNat ≤ 262144 ∧ d.shape.toNat ≤ 32768 ∧ d.diff.toNat ≤ 32768 ∧
      d.quant.toNat ≤ 32768 ∧ 328 ≤ d.refresh.toNat ∧ d.refresh.toNat ≤ 32768 ∧ d.warp.toNat ≤ 32768 ∧
      d.phrand.toNat ≤ 32768 ∧ d.reverb.toNat ≤ 32768)

/-- The invariants of the search registers (45_wsola.md R128). -/
structure SearchOk (w : Search) : Prop where
  exclusive : ¬(w.pending = true ∧ w.done = true)
  progress : w.candIdx.toNat ≤ w.candCount.toNat
  unfinished : w.pending = true → w.candIdx.toNat < w.candCount.toNat
  best : w.bestOffset.toNat < max 1 w.candCount.toNat

/-- The ranges of a filter's coefficient registers (10_state.md R33, 42_svf.md R99). -/
structure SvfOk (v : Svf) : Prop where
  g : v.g.toNat ≤ 269617
  r : 256 ≤ v.r.toNat ∧ v.r.toNat ≤ 131072
  h : 2505 ≤ v.h.toNat ∧ v.h.toNat ≤ 65536
  f : v.f.toNat ≤ Config.fMax
  q : Config.qMin ≤ v.q.toNat ∧ v.q.toNat ≤ Config.qMax

/-- The ranges of a playing grain's registers (10_state.md R34). -/
def GrainOk (g : GrainSlot) : Prop :=
  g.active = true →
    Config.grainMinLen ≤ (g.len.toNat : Int) ∧ g.len.toNat ≤ 32768 ∧ g.phase.toNat < g.len.toNat ∧
      4096 ≤ g.ratio.toNat ∧ g.ratio.toNat ≤ 1048576 ∧ g.gainL.toNat ≤ 32768 ∧ g.gainR.toNat ≤ 32768

/-- The frame buffers have `BLOCK_SIZE` frames each (10_state.md R37, R38). -/
def BuffersOk (s : State) : Prop :=
  s.fbbuf.length = s.blockSize ∧ s.inbuf.length = s.blockSize ∧ s.outbuf.length = s.blockSize

/-- The invariants of a bound instance (10_state.md R32, 20_memory.md R47 to R49, 41_ring_buffer.md R95). -/
structure BoundOk (s : State) (i : Fin 2) : Prop where
  declared : (s.arena s.rings[i].space).declared = true
  inside : s.rings[i].base.toNat + s.rings[i].size.toNat ≤ (s.arena s.rings[i].space).size.toNat
  samples : s.rings[i].n.toNat = capacity s.rings[i].enc s.rings[i].size.toNat
  room : Config.tail ≤ s.rings[i].n.toNat
  cursor : s.rings[i].wcur.toNat < s.rings[i].n.toNat
  fade : s.rings[i].fade.toNat ≤ Config.fadeLen
  even : s.rings[i].enc = .linear16 → s.rings[i].base.toNat % 2 = 0 ∧ s.rings[i].size.toNat % 2 = 0
  specified : ∀ x, inRegion s.rings[i] s.rings[i].space x → (s.byte? s.rings[i].space x).isSome = true
  tail : ∀ j : Fin Config.tail, s.rings[i].tail[j].toInt = rbLoad s i j.val

/-- The ring buffer register sets (10_state.md R32) and the disjointness of the two regions (41_ring_buffer.md R85). -/
structure RingsOk (s : State) : Prop where
  bound : ∀ i : Fin 2, s.rings[i].bound = true → BoundOk s i
  unbound : ∀ i : Fin 2, s.rings[i].bound = false → s.rings[i] = Ring.unbound
  disjoint : ∀ sp x, ¬(inRegion s.rings[0] sp x ∧ inRegion s.rings[1] sp x)

/-- What `PROCESS` relies on (48_sequencer.md R174): with no reset pending after `INIT`, a mode is committed, the ring buffers
`QUALITY` asks for are bound with its encoding and at least `SEQ_N_MIN` samples, and the workspace lies inside its arena apart
from the ring buffers, all its bytes unspecified (20_memory.md R51, R52). -/
structure ReadyOk (s : State) : Prop where
  before : s.inited = false → s.prevMode = none
  committed : s.inited = true → s.resetPending = false → s.prevMode ≠ none
  left : s.inited = true → s.resetPending = false →
    s.rings[0].bound = true ∧ s.rings[0].enc = s.format ∧ Config.seqNMin ≤ s.rings[0].n.toNat
  right : s.inited = true → s.resetPending = false → s.mono = false →
    s.rings[1].bound = true ∧ s.rings[1].enc = s.format ∧ s.rings[1].n = s.rings[0].n
  single : s.inited = true → s.resetPending = false → s.mono = true → s.rings[1].bound = false
  workspace : s.inited = true → s.resetPending = false →
    s.wsBase.toNat + s.wsSize.toNat ≤ (s.arena s.wsSpace).size.toNat ∧
      ∀ x, s.wsBase.toNat ≤ x → x < s.wsBase.toNat + s.wsSize.toNat →
        s.byte? s.wsSpace x = none ∧ ∀ i : Fin 2, ¬ inRegion s.rings[i] s.wsSpace x

/-- The invariant of a run. -/
structure State.Inv (s : State) : Prop where
  large : s.large.Ok
  small : s.small.Ok
  life : LifeOk s
  params : ParamsOk s
  derived : DerivedOk s.drv
  search : SearchOk s.search
  svfs : ∀ i : Fin 8, SvfOk s.svfs[i]
  grains : ∀ k : Fin Config.maxGrains, GrainOk s.grains.slots[k]
  rings : RingsOk s
  ready : ReadyOk s
  buffers : BuffersOk s

end Sys2Proof.Machine
end

