-- ==== Sys2Proof/Certificates/Slice0/Obligations.lean ====
section
/-! DEFINITION. The statements for the provers, in the order of OBLIGATIONS.json. A next state written as a record update of `s`
says that every field it does not name is unchanged. -/

open Sys2Proof Sys2Proof.Machine

/-! ## Encoding -/

/-- Every command's word decodes to the command, at every operand (30_encoding.md R62 to R65). -/
def Obligations.DecodeOfEncode : Prop := ∀ i : Instr, decode (encode i) = .ok i

/-- A word that decodes is the word of the command it decodes to: no two words mean one command. -/
def Obligations.EncodeOfDecode : Prop := ∀ (w : Cmd) (i : Instr), decode w = .ok i → encode i = w

/-- 60_exceptions.md R181: a word is legal exactly when a row of the opcode map matches it; a reserved opcode matches none; an
illegal word raises `ILLEGAL_CMD` with its opcode. -/
def Obligations.LegalWordsMatchARow : Prop :=
  ∀ w : Cmd,
    ((∃ i, decode w = .ok i) ↔ ∃ row ∈ commandRows, w &&& row.mask = row.pattern) ∧
    (((0x13 ≤ (w.extractLsb' 56 8).toNat ∧ (w.extractLsb' 56 8).toNat ≤ 0x17) ∨ (w.extractLsb' 56 8).toNat = 0x1B ∨
        0x1E ≤ (w.extractLsb' 56 8).toNat) → ¬ ∃ row ∈ commandRows, w &&& row.mask = row.pattern) ∧
    (∀ i, decode w = .ok i → w &&& (rowOf i).mask = (rowOf i).pattern) ∧
    ∀ s : State, s.fault = false → (¬ ∃ row ∈ commandRows, w &&& row.mask = row.pattern) →
      step (s.present w) = .next
        { s with
          fault := true
          faultCause := 1
          faultInfo := (w.extractLsb' 56 8).setWidth 32
          faultCmdLo := w.extractLsb' 0 32
          faultCmdHi := w.extractLsb' 32 32
          resp := none }

/-- 30_encoding.md R70: the worked encodings, read and written. -/
def Obligations.WorkedEncodings : Prop :=
  (decode 0x0B00000000000000 = .ok .prepare ∧ encode .prepare = 0x0B00000000000000) ∧
  (decode 0x0603000000000000 = .ok (.setmode 3) ∧ encode (.setmode 3) = 0x0603000000000000) ∧
  (decode 0x0C00002000000000 = .ok (.process 32) ∧ encode (.process 32) = 0x0C00002000000000) ∧
  (decode 0x040000000000BB80 = .ok (.init 48000) ∧ encode (.init 48000) = 0x040000000000BB80) ∧
  (decode 0x0502F40000000000 = .ok (.pset 2 (-3072)) ∧ encode (.pset 2 (-3072)) = 0x0502F40000000000) ∧
  (decode 0x0200000000020000 = .ok (.arena .large 131072) ∧ encode (.arena .large 131072) = 0x0200000000020000) ∧
  (decode 0x0D000005FC1803E8 = .ok (.framew 5 1000 (-1000)) ∧
    encode (.framew 5 1000 (-1000)) = 0x0D000005FC1803E8) ∧
  (decode 0x1103001000020001 = .ok (.rbwf 1 true 16 2 1) ∧ encode (.rbwf 1 true 16 2 1) = 0x1103001000020001) ∧
  (decode 0x1006000100000400 = .ok (.rbinit 0 .small .mulaw8 0x000100 0x000400) ∧
    encode (.rbinit 0 .small .mulaw8 0x000100 0x000400) = 0x1006000100000400)

/-! ## The machine -/

/-- A step consumes one event: a decoded command runs as `exec` says, an illegal word is an illegal command, a reset resets, and
with no event the state stands (10_state.md R14, 20_memory.md R55, 70_reset_and_hazards.md R193; log entries 8 and 10). -/
def Obligations.StepRunsTheDecodedCommand : Prop :=
  (∀ (s : State) (w : Cmd) (rest : List HostEvent) (i : Instr), s.inputs = .command w :: rest → decode w = .ok i →
    step s = exec i { s with inputs := rest }) ∧
  (∀ (s : State) (w : Cmd) (rest : List HostEvent) (e : DecodeError), s.inputs = .command w :: rest →
    decode w = .error e → step s = illegalCommand w { s with inputs := rest }) ∧
  (∀ (s : State) (rest : List HostEvent), s.inputs = .reset :: rest →
    step s = .next { State.resetFor s.hw with inputs := rest, draws := s.draws }) ∧
  ∀ s : State, s.inputs = [] → step s = .next s

/-- What a reset event leaves, as the host reads it: every register, the state with no address, and no arena byte, in the same
instance of the hardware (70_reset_and_hazards.md R192). The open-kernel states are log entry 5. -/
def Obligations.ResetRegisterValues : Prop :=
  ∀ (s : State) (rest : List HostEvent), s.inputs = .reset :: rest → ∃ t, step s = .next t ∧
    (∀ a, mappedAddress a = true → t.reg? a = some (
      if a = 0x000 then 0x52424D31
      else if a = 0x003 then 4
      else if a = 0x009 then BitVec.ofNat 32 s.blockSize
      else if a = 0x016 then 16
      else if a = 0x017 then 2
      else if a = 0x100 then 1
      else if 0x080 ≤ a ∧ a < 0x100 ∧ (a % 16 = 0x1 ∨ a % 16 = 0x2 ∨ a % 16 = 0xC) then 65536
      else 0)) ∧
    t.hw = s.hw ∧ t.upPrev = ⟨0, 0⟩ ∧ t.fbbuf = List.replicate s.blockSize ⟨0, 0⟩ ∧
    t.inbuf = List.replicate s.blockSize ⟨0, 0⟩ ∧ t.outbuf = List.replicate s.blockSize ⟨0, 0⟩ ∧ ∀ sp x, t.byte? sp x = none

/-! ## Invariants -/

/-- The invariant of a run holds after hardware reset, of the instance with the spec's values and of every other. -/
def Obligations.InvariantHoldsAtReset : Prop := State.reset.Inv ∧ ∀ hw : HwParams, (State.resetFor hw).Inv

/-- Every step keeps the invariant of a run. -/
def Obligations.EveryStepKeepsTheInvariant : Prop := ∀ s t : State, s.Inv → step s = .next t → t.Inv

/-- Every step keeps the bytes of both arenas in canonical form. -/
def Obligations.StepKeepsMemoriesCanonical : Prop :=
  ∀ s t : State, s.large.mem.wf = true → s.small.mem.wf = true → step s = .next t →
    t.large.mem.wf = true ∧ t.small.mem.wf = true

/-- Two canonical memories that read alike at every address are equal. -/
def Obligations.CanonicalMemoriesAreEqual : Prop :=
  ∀ m n : Memory, m.wf = true → n.wf = true → (∀ a, m.get? a = n.get? a) → m = n

/-- Every step keeps the stored ranges of the parameter and pipeline registers (10_state.md R27, R37). -/
def Obligations.StepKeepsParameterRanges : Prop := ∀ s t : State, ParamsOk s → step s = .next t → ParamsOk t

/-- Every step keeps the ranges of the derived-parameter registers (10_state.md R30). -/
def Obligations.StepKeepsDerivedRanges : Prop :=
  ∀ s t : State, ParamsOk s → DerivedOk s.drv → step s = .next t → DerivedOk t.drv

/-- Every step keeps the invariants of the search registers (45_wsola.md R128). -/
def Obligations.StepKeepsSearchInvariants : Prop :=
  ∀ s t : State, SearchOk s.search → step s = .next t → SearchOk t.search

/-- Every step keeps the ranges of the filter coefficients (10_state.md R33). -/
def Obligations.StepKeepsFilterRanges : Prop :=
  ∀ s t : State, (∀ i : Fin 8, SvfOk s.svfs[i]) → step s = .next t → ∀ i : Fin 8, SvfOk t.svfs[i]

/-- Every step keeps the ranges of the playing grains (10_state.md R34). -/
def Obligations.StepKeepsGrainRanges : Prop :=
  ∀ s t : State, ParamsOk s → (∀ k : Fin Config.maxGrains, GrainOk s.grains.slots[k]) → step s = .next t →
    ∀ k : Fin Config.maxGrains, GrainOk t.grains.slots[k]

/-- Every step of a run keeps the invariants of the ring buffers: capacity, cursor, fade, alignment, region, tail copy, no
unspecified byte, and disjoint regions (10_state.md R32, 20_memory.md R49, 41_ring_buffer.md R95). -/
def Obligations.StepKeepsRingInvariants : Prop := ∀ s t : State, s.Inv → step s = .next t → RingsOk t

/-- Every step of a run keeps what `PROCESS` relies on (48_sequencer.md R174). -/
def Obligations.StepKeepsTheBlockReady : Prop := ∀ s t : State, s.Inv → step s = .next t → ReadyOk t

/-- No command clears `TABLES_VALID`, `INITED`, `FAULT` or an arena's declaration, and only the named command sets each of the
life-cycle bits (10_state.md R19). -/
def Obligations.LifeCycleBitsAreOnlySet : Prop :=
  ∀ (i : Instr) (s t : State), exec i s = .next t →
    (s.tablesValid = true → t.tablesValid = true) ∧ (s.inited = true → t.inited = true) ∧
    (s.fault = true → t.fault = true) ∧
    (∀ sp, (s.arena sp).declared = true → (t.arena sp).declared = true) ∧
    (s.tablesValid = false → t.tablesValid = true → ∃ sr, i = .tblinit sr) ∧
    (s.inited = false → t.inited = true → ∃ sr, i = .init sr) ∧
    (∀ sp, (s.arena sp).declared = false → (t.arena sp).declared = true → ∃ size, i = .arena sp size)

/-- What each command does to the triple `PREV_MODE`, `MODE`, `RESET_PENDING` (the table of 48_sequencer.md R149), and that `PROCESS`
makes no sound outside `Stable`. That `Stable` is reached by `PREPARE` or by a `SETMODE` back to the committed mode with no reset
pending is log entry 22 (DEDUCED from R21 and R141): R149's own sentence has only `PREPARE` move toward `Stable`. -/
def Obligations.ModeMachineEvents : Prop :=
  (∀ (i : Instr) (s t : State), s.fault = false → exec i s = .next t → t.fault = false →
    match i with
    | .init _ => t.prevMode = none ∧ t.mode = .granular ∧ t.resetPending = true
    | .setmode m => t.prevMode = s.prevMode ∧ t.mode.code = m.toNat ∧ t.resetPending = s.resetPending
    | .setqual q => t.prevMode = s.prevMode ∧ t.mode = s.mode ∧
        t.resetPending = if q.toNat = s.quality.toNat then s.resetPending else true
    | .rstbuf => t.prevMode = s.prevMode ∧ t.mode = s.mode ∧ t.resetPending = true
    | .prepare => t.prevMode = some s.mode ∧ t.mode = s.mode ∧ t.resetPending = false
    | _ => t.prevMode = s.prevMode ∧ t.mode = s.mode ∧ t.resetPending = s.resetPending) ∧
  (∀ (i : Instr) (s t : State), exec i s = .next t → t.fault = true →
    t.prevMode = s.prevMode ∧ t.mode = s.mode ∧ t.resetPending = s.resetPending) ∧
  (∀ (i : Instr) (s t : State), exec i s = .next t → ¬ stable s → stable t →
    i = .prepare ∨ ∃ m, i = .setmode m ∧ s.resetPending = false) ∧
  ∀ (size : BitVec 16) (s t : State), s.fault = false → s.bypass = false → ¬ stable s →
    exec (.process size) s = .next t → t.fault = false → t.outbuf = List.replicate s.blockSize ⟨0, 0⟩

/-- Arena bytes change only by the commands of 20_memory.md R58: a declaration, a ring buffer init, an open ring buffer write,
`PREPARE` and `PROCESS`; the unit commands reach the one arena they name. -/
def Obligations.ArenaBytesChangeOnlyBy : Prop :=
  ∀ (i : Instr) (s t : State) (sp : Space) (x : Nat), exec i s = .next t → t.byte? sp x ≠ s.byte? sp x →
    (∃ size, i = .arena sp size) ∨
    (∃ inst enc base size, i = .rbinit inst sp enc base size) ∨
    (∃ inst count stride src, i = .rbwf inst true count stride src ∧ s.rings[inst].space = sp) ∨
    i = .prepare ∨
    ∃ size, i = .process size

/-- Which commands can change which register or buffer (the write columns of 10_state.md R19 to R38): every field of the state but
the arena bytes (`ArenaBytesChangeOnlyBy`) and the response. `CMDCNT` counts exactly the commands that complete (R25), the fault
registers change only when a fault is taken (R26), the parameters of the instance never change (00_scope.md R8), the host's events
are not touched by a command and only a `PEEK` draws a free value (log entries 6 and 8). -/
def Obligations.RegistersChangeOnlyByTheirCommands : Prop :=
  ∀ (i : Instr) (s t : State), exec i s = .next t →
    (t.tablesValid ≠ s.tablesValid → ∃ sr, i = .tblinit sr) ∧
    (t.inited ≠ s.inited → ∃ sr, i = .init sr) ∧
    (t.mode ≠ s.mode → (∃ m, i = .setmode m) ∨ ∃ sr, i = .init sr) ∧
    (t.resetPending ≠ s.resetPending → (∃ q, i = .setqual q) ∨ i = .rstbuf ∨ i = .prepare ∨ ∃ sr, i = .init sr) ∧
    (∀ sp, (t.arena sp).size ≠ (s.arena sp).size ∨ (t.arena sp).declared ≠ (s.arena sp).declared →
      ∃ size, i = .arena sp size) ∧
    t.cmdcnt = (if s.fault = false ∧ t.fault = false then s.cmdcnt + 1 else s.cmdcnt) ∧
    (t.fault ≠ s.fault ∨ t.faultCause ≠ s.faultCause ∨ t.faultInfo ≠ s.faultInfo ∨ t.faultCmdLo ≠ s.faultCmdLo ∨
        t.faultCmdHi ≠ s.faultCmdHi →
      s.fault = false ∧ t.fault = true) ∧
    t.hw = s.hw ∧ t.inputs = s.inputs ∧
    (t.draws ≠ s.draws → ∃ sp addr, i = .peek sp addr) ∧
    (t.inbuf ≠ s.inbuf → ∃ k l r, i = .framew k l r) ∧
    (t.outbuf ≠ s.outbuf → ∃ size, i = .process size) ∧
    (t.tblSr ≠ s.tblSr → ∃ sr, i = .tblinit sr) ∧
    (t.sr ≠ s.sr → ∃ sr, i = .init sr) ∧
    (t.quality ≠ s.quality → (∃ q, i = .setqual q) ∨ ∃ sr, i = .init sr) ∧
    (t.bypass ≠ s.bypass → (∃ b, i = .setbyp b) ∨ ∃ sr, i = .init sr) ∧
    (t.silence ≠ s.silence → (∃ b, i = .setsil b) ∨ ∃ sr, i = .init sr) ∧
    (t.p ≠ s.p → (∃ k v, i = .pset k v) ∨ i = .prepare ∨ ∃ sr, i = .init sr) ∧
    (t.prevMode ≠ s.prevMode → i = .prepare ∨ ∃ sr, i = .init sr) ∧
    (t.wsSpace ≠ s.wsSpace ∨ t.wsBase ≠ s.wsBase ∨ t.wsSize ≠ s.wsSize → i = .prepare ∨ ∃ sr, i = .init sr) ∧
    (t.drv ≠ s.drv ∨ t.freezeLp ≠ s.freezeLp ∨ t.dwPrev ≠ s.dwPrev ∨ t.fbbuf ≠ s.fbbuf →
      (∃ size, i = .process size) ∨ ∃ sr, i = .init sr) ∧
    (t.loopSync ≠ s.loopSync ∨ t.upPrev ≠ s.upPrev ∨ t.grains ≠ s.grains ∨ t.search ≠ s.search ∨
        t.kernels ≠ s.kernels →
      (∃ size, i = .process size) ∨ i = .prepare ∨ ∃ sr, i = .init sr) ∧
    (∀ k : Fin 8, t.svfs[k] ≠ s.svfs[k] →
      i = .svfrst k ∨ (∃ f q, i = .svfset k f q) ∨ (∃ x, i = .svfstep k x) ∨ (∃ size, i = .process size) ∨
        i = .prepare ∨ ∃ sr, i = .init sr) ∧
    (∀ k : Fin 2, t.rings[k] ≠ s.rings[k] →
      (∃ sp enc base size, i = .rbinit k sp enc base size) ∨ (∃ al count stride src, i = .rbwf k al count stride src) ∨
        (∃ which size, i = .arena which size) ∨ (∃ size, i = .process size) ∨ i = .prepare ∨ ∃ sr, i = .init sr)

/-! ## Faults -/

/-- 60_exceptions.md R188 over the tables of R182 and R183: exactly one fault is raised, the first in the order `ILLEGAL_CMD`,
`SEQUENCE`, `OPERAND`, `UNBOUND`, `ARENA`; a command none of whose checks raises completes and is counted. -/
def Obligations.TheFirstFaultIsRaised : Prop :=
  (∀ (s : State) (w : Cmd), s.fault = false →
    (legalWord w = false → step (s.present w) = .next (s.faulted .illegalCmd (w.extractLsb' 56 8).toNat w)) ∧
    ∀ i, decode w = .ok i →
      (∀ c v, Raises s i c v → step (s.present w) = .next (s.faulted c v w)) ∧
      (noFault s i → ∃ t, step (s.present w) = .next t ∧ t.fault = false ∧ t.cmdcnt = s.cmdcnt + 1 ∧
        t.faultCause = s.faultCause ∧ t.faultInfo = s.faultInfo ∧ t.faultCmdLo = s.faultCmdLo ∧
        t.faultCmdHi = s.faultCmdHi)) ∧
  ∀ (s : State) (i : Instr) (c d : Cause) (v u : Nat), Raises s i c v → Raises s i d u → c = d ∧ v = u

/-- 60_exceptions.md R186: taking a fault does the five writes, gives no response, does not count, and changes nothing else. -/
def Obligations.TakingAFaultWritesFiveRegisters : Prop :=
  ∀ (s : State) (i : Instr) (c : Cause) (v : Nat), s.fault = false → Raises s i c v →
    exec i s = .next
      { s with
        fault := true
        faultCause :=
          match c with
          | .illegalCmd => 1
          | .sequence => 2
          | .operand => 3
          | .unbound => 4
          | .arena => 5
        faultInfo := BitVec.ofNat 32 v
        faultCmdLo := (encode i).extractLsb' 0 32
        faultCmdHi := (encode i).extractLsb' 32 32
        resp := none }

/-- 60_exceptions.md R187: the faulted state answers a `CSRR` of a mapped register and discards every other word; only hardware
reset leaves it. -/
def Obligations.TheFaultedStateIsSticky : Prop :=
  ∀ s : State, s.fault = true →
    (∀ w : Cmd, w &&& 0xFFFF0000FFFFFFFF = 0x0100000000000000 → mappedAddress (w.extractLsb' 32 16).toNat = true →
      ∃ v, s.reg? (w.extractLsb' 32 16).toNat = some v ∧ step (s.present w) = .next { s with resp := some v }) ∧
    (∀ w : Cmd, ¬(w &&& 0xFFFF0000FFFFFFFF = 0x0100000000000000 ∧ mappedAddress (w.extractLsb' 32 16).toNat = true) →
      step (s.present w) = .next { s with resp := none }) ∧
    ∀ t, step s = .next t → t.fault = false → ∃ rest, s.inputs = .reset :: rest

/-- Six commands respond when they complete, the others never, and no faulting command does (30_encoding.md R60, R61). -/
def Obligations.SixCommandsRespond : Prop :=
  ∀ (i : Instr) (s t : State), s.fault = false → exec i s = .next t →
    (t.resp.isSome = true ↔ responds i = true ∧ t.fault = false)

/-! ## Host commands -/

/-- `NOP`, `SETSIL`, `SETBYP`, `RSTBUF`, `SETMODE`, `SETQUAL` and `TBLINIT` complete and write the one or two registers their
rules name (47_host_commands.md R136, R141 to R145, 40_tables.md R71). -/
def Obligations.SettersWriteTheirRegisterOnly : Prop :=
  ∀ s : State, s.fault = false →
    exec .nop s = .next { s with resp := none, cmdcnt := s.cmdcnt + 1 } ∧
    (∀ b, exec (.setsil b) s = .next { s with silence := b, resp := none, cmdcnt := s.cmdcnt + 1 }) ∧
    (∀ b, exec (.setbyp b) s = .next { s with bypass := b, resp := none, cmdcnt := s.cmdcnt + 1 }) ∧
    exec .rstbuf s = .next { s with resetPending := true, resp := none, cmdcnt := s.cmdcnt + 1 } ∧
    (∀ (k : BitVec 8) (m : Mode), k.toNat = m.code →
      exec (.setmode k) s = .next { s with mode := m, resp := none, cmdcnt := s.cmdcnt + 1 }) ∧
    (∀ k : BitVec 8, k.toNat ≤ 3 →
      exec (.setqual k) s = .next
        { s with
          quality := k.setWidth 2
          resetPending := if k.setWidth 2 = s.quality then s.resetPending else true
          resp := none
          cmdcnt := s.cmdcnt + 1 }) ∧
    (∀ sr : BitVec 32, sr ≠ 0 → s.tablesValid = false →
      exec (.tblinit sr) s = .next
        { s with tblSr := sr, tablesValid := true, resp := none, cmdcnt := s.cmdcnt + 1 })

/-- `CSRR` of a mapped address completes with the register and changes nothing else, and the mapped addresses are exactly those
with a register (47_host_commands.md R137, 10_state.md R17). -/
def Obligations.CsrrRespondsWithTheRegister : Prop :=
  (∀ (s : State) (addr : BitVec 16), s.fault = false → mappedAddress addr.toNat = true →
    ∃ v, s.reg? addr.toNat = some v ∧
      exec (.csrr addr) s = .next { s with resp := some v, cmdcnt := s.cmdcnt + 1 }) ∧
  ∀ (s : State) (a : Nat), (s.reg? a).isSome = true ↔ mappedAddress a = true

/-- The register map: what each mapped address holds, extended as its row says (10_state.md R18 to R37). -/
def Obligations.RegisterMapReads : Prop :=
  ∀ s : State,
    s.reg? 0x000 = some 0x52424D31 ∧
    (∃ v, s.reg? 0x001 = some v ∧ v.toNat < 1024 ∧ v.getLsbD 0 = s.tablesValid ∧ v.getLsbD 1 = s.inited ∧
      v.getLsbD 2 = s.resetPending ∧ v.getLsbD 3 = s.fault ∧ v.getLsbD 4 = s.bypass ∧ v.getLsbD 5 = s.silence ∧
      v.getLsbD 6 = s.p[9].getLsbD 0 ∧ v.getLsbD 7 = s.loopSync ∧ v.getLsbD 8 = s.large.declared ∧
      v.getLsbD 9 = s.small.declared) ∧
    s.reg? 0x002 = some (BitVec.ofNat 32 s.mode.code) ∧
    s.reg? 0x003 = some (match s.prevMode with | some m => BitVec.ofNat 32 m.code | none => 4) ∧
    s.reg? 0x004 = some (s.quality.setWidth 32) ∧ s.reg? 0x005 = some s.sr ∧ s.reg? 0x006 = some s.tblSr ∧
    s.reg? 0x007 = some (s.large.size.setWidth 32) ∧ s.reg? 0x008 = some (s.small.size.setWidth 32) ∧
    s.reg? 0x009 = some (BitVec.ofNat 32 s.blockSize) ∧ s.reg? 0x00A = some s.cmdcnt ∧ s.reg? 0x00B = some (s.faultCause.setWidth 32) ∧
    s.reg? 0x00C = some s.faultInfo ∧ s.reg? 0x00D = some s.faultCmdLo ∧ s.reg? 0x00E = some s.faultCmdHi ∧
    s.reg? 0x010 = some (s.wsSpace.code.setWidth 32) ∧ s.reg? 0x011 = some (s.wsBase.setWidth 32) ∧
    s.reg? 0x012 = some (s.wsSize.setWidth 32) ∧ s.reg? 0x013 = some (s.freezeLp.setWidth 32) ∧
    s.reg? 0x014 = some (s.dwPrev.setWidth 32) ∧
    s.reg? 0x015 = some (if s.quality.getLsbD 1 then s.sr >>> 1 else s.sr) ∧
    s.reg? 0x016 = some (if s.quality.getLsbD 1 then 8 else 16) ∧
    s.reg? 0x017 = some (if s.quality.getLsbD 0 then 1 else 2) ∧
    (∀ k : Fin 10, k ≠ 2 → s.reg? (0x020 + k.val) = some (s.p[k].setWidth 32)) ∧
    s.reg? 0x022 = some (s.p[2].signExtend 32) ∧
    s.reg? 0x030 = some (s.drv.overlap.setWidth 32) ∧ s.reg? 0x031 = some (s.drv.shape.setWidth 32) ∧
    s.reg? 0x032 = some (if s.drv.det then 1 else 0) ∧ s.reg? 0x033 = some (s.drv.diff.setWidth 32) ∧
    s.reg? 0x034 = some (s.drv.quant.setWidth 32) ∧ s.reg? 0x035 = some (s.drv.refresh.setWidth 32) ∧
    s.reg? 0x036 = some (s.drv.warp.setWidth 32) ∧ s.reg? 0x037 = some (s.drv.phrand.setWidth 32) ∧
    s.reg? 0x038 = some (s.drv.reverb.setWidth 32) ∧
    (∀ i : Fin 2,
      (∃ v, s.reg? (0x040 + 0x10 * i.val) = some v ∧ v.toNat < 8 ∧ v.getLsbD 0 = s.rings[i].bound ∧
        (v.getLsbD 1 = true ↔ s.rings[i].enc = .mulaw8) ∧ (v.getLsbD 2 = true ↔ s.rings[i].space = .small)) ∧
      s.reg? (0x041 + 0x10 * i.val) = some (s.rings[i].base.setWidth 32) ∧
      s.reg? (0x042 + 0x10 * i.val) = some (s.rings[i].size.setWidth 32) ∧
      s.reg? (0x043 + 0x10 * i.val) = some (s.rings[i].n.setWidth 32) ∧
      s.reg? (0x044 + 0x10 * i.val) = some (s.rings[i].wcur.setWidth 32) ∧
      s.reg? (0x045 + 0x10 * i.val) = some (s.rings[i].fade.setWidth 32) ∧
      ∀ j : Fin 8, s.reg? (0x048 + 0x10 * i.val + j.val) = some (s.rings[i].tail[j].signExtend 32)) ∧
    (∀ i : Fin 8,
      s.reg? (0x080 + 0x10 * i.val) = some (s.svfs[i].g.setWidth 32) ∧
      s.reg? (0x081 + 0x10 * i.val) = some (s.svfs[i].r.setWidth 32) ∧
      s.reg? (0x082 + 0x10 * i.val) = some (s.svfs[i].h.setWidth 32) ∧
      s.reg? (0x083 + 0x10 * i.val) = some (s.svfs[i].s1.extractLsb' 0 32) ∧
      s.reg? (0x084 + 0x10 * i.val) = some ((s.svfs[i].s1.extractLsb' 32 8).signExtend 32) ∧
      s.reg? (0x085 + 0x10 * i.val) = some (s.svfs[i].s2.extractLsb' 0 32) ∧
      s.reg? (0x086 + 0x10 * i.val) = some ((s.svfs[i].s2.extractLsb' 32 8).signExtend 32) ∧
      s.reg? (0x087 + 0x10 * i.val) = some s.svfs[i].lp ∧ s.reg? (0x088 + 0x10 * i.val) = some s.svfs[i].hp ∧
      s.reg? (0x089 + 0x10 * i.val) = some s.svfs[i].bp ∧ s.reg? (0x08A + 0x10 * i.val) = some s.svfs[i].notch ∧
      s.reg? (0x08B + 0x10 * i.val) = some (s.svfs[i].f.setWidth 32) ∧
      s.reg? (0x08C + 0x10 * i.val) = some (s.svfs[i].q.setWidth 32)) ∧
    s.reg? 0x100 = some s.grains.prng ∧ s.reg? 0x101 = some s.grains.spawnCtr ∧
    (∃ v, s.reg? 0x102 = some v ∧ v.toNat < 65536 ∧ ∀ k : Fin 16, v.getLsbD k.val = s.grains.slots[k].active) ∧
    (∀ k : Fin 16,
      s.reg? (0x110 + 8 * k.val) = some (if s.grains.slots[k].active then 1 else 0) ∧
      s.reg? (0x111 + 8 * k.val) = some (s.grains.slots[k].startHi.setWidth 32) ∧
      s.reg? (0x112 + 8 * k.val) = some (s.grains.slots[k].startLo.setWidth 32) ∧
      s.reg? (0x113 + 8 * k.val) = some (s.grains.slots[k].phase.setWidth 32) ∧
      s.reg? (0x114 + 8 * k.val) = some (s.grains.slots[k].len.setWidth 32) ∧
      s.reg? (0x115 + 8 * k.val) = some (s.grains.slots[k].ratio.setWidth 32) ∧
      s.reg? (0x116 + 8 * k.val) = some (s.grains.slots[k].gainL.setWidth 32) ∧
      s.reg? (0x117 + 8 * k.val) = some (s.grains.slots[k].gainR.setWidth 32)) ∧
    (∃ v, s.reg? 0x200 = some v ∧ v.toNat < 4 ∧ v.getLsbD 0 = s.search.pending ∧ v.getLsbD 1 = s.search.done) ∧
    s.reg? 0x201 = some (s.search.candIdx.setWidth 32) ∧ s.reg? 0x202 = some (s.search.candCount.setWidth 32) ∧
    s.reg? 0x203 = some s.search.bestScore ∧ s.reg? 0x204 = some (s.search.bestOffset.setWidth 32)

/-- `ARENA` before `INIT` declares its arena with the given size, makes all its bytes unspecified and unbinds the instances bound in
it; the other arena is unchanged (47_host_commands.md R138, 20_memory.md R41). -/
def Obligations.ArenaDeclares : Prop :=
  ∀ (s : State) (which : Space) (size : BitVec 32), s.fault = false → s.inited = false → size ≠ 0 →
    size.toNat < 2 ^ 24 →
    ∃ t, exec (.arena which size) s = .next t ∧
      t = { s with
            large := t.large, small := t.small, rings := t.rings, resp := none, cmdcnt := s.cmdcnt + 1 } ∧
      (t.arena which).declared = true ∧ (t.arena which).size.toNat = size.toNat ∧
      (∀ x, t.byte? which x = none) ∧
      (∀ sp, sp ≠ which → t.arena sp = s.arena sp) ∧
      ∀ i : Fin 2, t.rings[i] =
        if s.rings[i].bound = true ∧ s.rings[i].space = which then ⟨false, .linear16, .large, 0, 0, 0, 0, 0, Vector.replicate 8 0⟩
        else s.rings[i]

/-- `INIT` completes in the right life-cycle state and leaves the registers as 47_host_commands.md R139 lists them; everything it does
not list, the arena bytes among it, is unchanged. -/
def Obligations.InitLeavesTheListedState : Prop :=
  ∀ (s : State) (sr : BitVec 32), s.fault = false → s.tablesValid = true → s.inited = false →
    s.large.declared = true → s.small.declared = true → sr ≠ 0 →
    let k : KArgs := ⟨sr, s.tblSr, 2, false, 0, s.blockSize⟩
    ∃ t, exec (.init sr) s = .next t ∧
      t = { s with
            sr := sr
            inited := true
            resetPending := true
            mode := .granular
            prevMode := none
            quality := 0
            bypass := false
            silence := false
            loopSync := false
            p := Vector.replicate 10 0
            drv := ⟨0, 0, false, 0, 0, 0, 0, 0, 0⟩
            freezeLp := 0
            dwPrev := 0
            upPrev := ⟨0, 0⟩
            fbbuf := List.replicate s.blockSize ⟨0, 0⟩
            svfs := t.svfs
            rings := Vector.replicate 2 ⟨false, .linear16, .large, 0, 0, 0, 0, 0, Vector.replicate 8 0⟩
            wsSpace := .large
            wsBase := 0
            wsSize := 0
            grains := ⟨1, 0, Vector.replicate 16 ⟨false, 0, 0, 0, 0, 0, 0, 0⟩⟩
            search := ⟨false, false, 0, 0, 0, 0⟩
            kernels :=
              ⟨Config.wsolaInit k, Config.pvInit k, Config.loopInit k, Config.diffInit k, Config.psInit k, Config.revInit k⟩
            resp := none
            cmdcnt := s.cmdcnt + 1 } ∧
      ∀ i : Fin 8, t.svfs[i] = { s.svfs[i] with s1 := 0, s2 := 0, lp := 0, hp := 0, bp := 0, notch := 0 }

/-- `PSET` completes for index 0 to 9 and stores the clamped value in that parameter register alone (47_host_commands.md R140). -/
def Obligations.PsetClampsAndStores : Prop :=
  ∀ (s : State) (index : BitVec 8) (value : BitVec 16), s.fault = false → index.toNat ≤ 9 →
    ∃ t, exec (.pset index value) s = .next t ∧
      t = { s with p := t.p, resp := none, cmdcnt := s.cmdcnt + 1 } ∧
      ∀ k : Fin 10,
        (k.val ≠ index.toNat → t.p[k] = s.p[k]) ∧
        (k.val = index.toNat → k = 2 →
          t.p[k].toInt = if value.toInt < -12288 then -12288 else if 12288 < value.toInt then 12288 else value.toInt) ∧
        (k.val = index.toNat → k = 9 → t.p[k].toNat = value.toNat % 8) ∧
        (k.val = index.toNat → k ≠ 2 → k ≠ 9 → t.p[k].toNat = min value.toNat 32768)

/-- `FRAMEW` writes one frame of `INBUF`, `FRAMER` responds with one frame of `OUTBUF`, right half high, and changes no state
(47_host_commands.md R146, R147). -/
def Obligations.FrameCommandsMoveOneFrame : Prop :=
  ∀ (s : State) (index : BitVec 16), BuffersOk s → s.fault = false → index.toNat < s.blockSize →
    (∀ left right : BitVec 16, ∃ t, exec (.framew index left right) s = .next t ∧
      t = { s with inbuf := t.inbuf, resp := none, cmdcnt := s.cmdcnt + 1 } ∧
      t.inbuf.length = s.blockSize ∧ t.inbuf[index.toNat]? = some ⟨left, right⟩ ∧
      ∀ j, j ≠ index.toNat → t.inbuf[j]? = s.inbuf[j]?) ∧
    ∃ f, s.outbuf[index.toNat]? = some f ∧
      exec (.framer index) s = .next { s with resp := some (f.r ++ f.l), cmdcnt := s.cmdcnt + 1 }

/-- `PEEK` inside a declared arena responds with the byte as it stands and changes nothing; an unspecified byte gives the next
unconstrained value, whatever it is (47_host_commands.md R148, 20_memory.md R42; log entry 6). -/
def Obligations.PeekReadsOneByte : Prop :=
  ∀ (s : State) (space : Space) (addr : BitVec 32), s.fault = false → (s.arena space).declared = true →
    addr.toNat < (s.arena space).size.toNat →
    (∀ b, s.byte? space addr.toNat = some b →
      exec (.peek space addr) s = .next { s with resp := some (b.setWidth 32), cmdcnt := s.cmdcnt + 1 }) ∧
    (s.byte? space addr.toNat = none →
      exec (.peek space addr) s = .next
        { s with
          resp := some ((Config.freeByte s.draws).setWidth 32)
          draws := s.draws + 1
          cmdcnt := s.cmdcnt + 1 })

/-! ## Ring buffers -/

/-- `RBINIT` of a region that fits binds the instance with cursor, fade and tail 0 and zero-fills exactly the region, so that every
sample loads 0; the other instance and every other byte are unchanged (41_ring_buffer.md R84, R85). -/
def Obligations.RbinitBindsAndZeroFills : Prop :=
  ∀ (s : State) (inst : Fin 2) (space : Space) (enc : SampleFormat) (base size : BitVec 24),
    s.fault = false → s.tablesValid = true → s.inited = false → (s.arena space).declared = true →
    (s.arena space).mem.wf = true → ¬ regionMisfit s inst space enc base.toNat size.toNat →
    ∃ t, exec (.rbinit inst space enc base size) s = .next t ∧
      t = { s with large := t.large, small := t.small, rings := t.rings, resp := none, cmdcnt := s.cmdcnt + 1 } ∧
      (∀ sp, (t.arena sp).declared = (s.arena sp).declared ∧ (t.arena sp).size = (s.arena sp).size) ∧
      t.rings[inst] = ⟨true, enc, space, base, size, t.rings[inst].n, 0, 0, Vector.replicate 8 0⟩ ∧
      t.rings[inst].n.toNat = (if enc = .linear16 then size.toNat / 2 else size.toNat) ∧
      (∀ other, other ≠ inst → t.rings[other] = s.rings[other]) ∧
      (∀ sp x, t.byte? sp x =
        if sp = space ∧ base.toNat ≤ x ∧ x < base.toNat + size.toNat then some 0 else s.byte? sp x) ∧
      ∀ a, a < t.rings[inst].n.toNat → rbLoad t inst a = 0

/-- An open `RBWF` advances the cursor by `count`, runs the write fade down and stores only to the samples from the cursor on. With at
most `N` samples and a fade of at most `FADE_LEN`, the `k`-th of them loads as `INBUF_S[src + k * stride]`, while the fade runs as
the ramp from its old content to that value, exactly or through the mu-law code. A tail entry whose sample was written holds what
that sample loads as, any other stays (41_ring_buffer.md R86, R87, R89). -/
def Obligations.RbwfWritesSamplesAtTheCursor : Prop :=
  ∀ (s : State) (inst : Fin 2) (count stride src : BitVec 16),
    s.fault = false → s.tablesValid = true → s.rings[inst].bound = true →
    (count = 0 ∨ src.toNat + (count.toNat - 1) * stride.toNat < 2 * s.blockSize) →
    (s.arena s.rings[inst].space).mem.wf = true → s.rings[inst].wcur.toNat < s.rings[inst].n.toNat →
    ∃ t, exec (.rbwf inst true count stride src) s = .next t ∧
      t = { s with large := t.large, small := t.small, rings := t.rings, resp := none, cmdcnt := s.cmdcnt + 1 } ∧
      (∀ sp, (t.arena sp).declared = (s.arena sp).declared ∧ (t.arena sp).size = (s.arena sp).size) ∧
      (∀ other, other ≠ inst → t.rings[other] = s.rings[other]) ∧
      t.rings[inst] =
        { s.rings[inst] with wcur := t.rings[inst].wcur, fade := t.rings[inst].fade, tail := t.rings[inst].tail } ∧
      t.rings[inst].wcur.toNat = (s.rings[inst].wcur.toNat + count.toNat) % s.rings[inst].n.toNat ∧
      t.rings[inst].fade.toNat = s.rings[inst].fade.toNat - count.toNat ∧
      (∀ sp x, ¬ inWrite s.rings[inst] count.toNat sp x → t.byte? sp x = s.byte? sp x) ∧
      (s.rings[inst].fade.toNat ≤ 64 → count.toNat ≤ s.rings[inst].n.toNat → ∀ k, k < count.toNat →
        let a := (s.rings[inst].wcur.toNat + k) % s.rings[inst].n.toNat
        rbLoad t inst a = codedAs s.rings[inst].enc
          (fadedValue s.rings[inst].fade.toNat k (rbLoad s inst a)
            (inbufFlat s (src.toNat + k * stride.toNat)).toInt)) ∧
      ∀ j : Fin 8,
        ((∃ k, k < count.toNat ∧ (s.rings[inst].wcur.toNat + k) % s.rings[inst].n.toNat = j.val) →
          t.rings[inst].tail[j].toInt = rbLoad t inst j.val) ∧
        ((∀ k, k < count.toNat → (s.rings[inst].wcur.toNat + k) % s.rings[inst].n.toNat ≠ j.val) →
          t.rings[inst].tail[j] = s.rings[inst].tail[j])

/-- 41_ring_buffer.md R94: any sequence of frozen writes changes at most the fade, to 64; every read gives what it gave; a second
frozen write changes nothing; and `RBWF` with the gate closed is such a write. -/
def Obligations.FrozenWritesChangeOnlyTheFade : Prop :=
  (∀ (s : State) (i : Fin 2) (xss : List (List Half)),
    (xss.foldl (fun t xs => rbWrite t i xs false) s = s ∨
      xss.foldl (fun t xs => rbWrite t i xs false) s = s.withRing i { s.rings[i] with fade := 64 }) ∧
    ∀ d frac, rbRead (xss.foldl (fun t xs => rbWrite t i xs false) s) i d frac = rbRead s i d frac) ∧
  (∀ (s : State) (i : Fin 2) (xs ys : List Half), xs ≠ [] →
    rbWrite (rbWrite s i xs false) i ys false = rbWrite s i xs false) ∧
  ∀ (s : State) (inst : Fin 2) (count stride src : BitVec 16), s.fault = false → s.tablesValid = true →
    s.rings[inst].bound = true →
    (count = 0 ∨ src.toNat + (count.toNat - 1) * stride.toNat < 2 * s.blockSize) →
    ∃ t, exec (.rbwf inst false count stride src) s = .next t ∧
      t = { s with rings := t.rings, resp := none, cmdcnt := s.cmdcnt + 1 } ∧
      (∀ other, other ≠ inst → t.rings[other] = s.rings[other]) ∧
      t.rings[inst] = if count = 0 then s.rings[inst] else { s.rings[inst] with fade := 64 }

/-- `RBRD` responds with the interpolated sample `offset` whole samples behind the newest and changes no state; the result lies
between the two taps and is the first tap at fraction 0 (41_ring_buffer.md R90 to R92). R90's sentence that it never reaches the
second tap is stated where that tap is greater, as the formula gives it (log entry 22). -/
def Obligations.RbrdInterpolatesBehindTheCursor : Prop :=
  (∀ (s : State) (inst : Fin 2) (offset : BitVec 32) (frac : BitVec 16),
    s.fault = false → s.tablesValid = true → s.rings[inst].bound = true →
    let n := s.rings[inst].n.toNat
    let p := (((s.rings[inst].wcur.toNat : Int) - 1 - (offset.toNat : Int)) % (n : Int)).toNat
    let a := rbLoad s inst p
    let b := if p + 1 < n then rbLoad s inst (p + 1) else s.rings[inst].tail[0].toInt
    exec (.rbrd inst offset frac) s = .next
      { s with resp := some (BitVec.ofInt 32 (a + (b - a) * (frac.toNat : Int) / 65536)), cmdcnt := s.cmdcnt + 1 }) ∧
  ∀ (s : State) (i : Fin 2) (p frac : Nat), frac < 65536 →
    let b := if p + 1 < s.rings[i].n.toNat then rbLoad s i (p + 1) else s.rings[i].tail[0].toInt
    min (rbLoad s i p) b ≤ rbReadAbs s i p frac ∧ rbReadAbs s i p frac ≤ max (rbLoad s i p) b ∧
    rbReadAbs s i p 0 = rbLoad s i p ∧ (rbLoad s i p < b → rbReadAbs s i p frac < b) ∧
    -32768 ≤ rbReadAbs s i p frac ∧ rbReadAbs s i p frac ≤ 32767

/-- 41_ring_buffer.md R93: samples written with no fade running read back, exactly for 16-bit samples and through the mu-law code for
8-bit samples. -/
def Obligations.WrittenSamplesReadBack : Prop :=
  ∀ (s : State) (i : Fin 2) (xs : List Half), s.large.mem.wf = true → s.small.mem.wf = true →
    s.rings[i].wcur.toNat < s.rings[i].n.toNat → s.rings[i].fade = 0 → xs.length ≤ s.rings[i].n.toNat →
    ∀ k : Fin xs.length, rbRead (rbWrite s i xs true) i (xs.length - 1 - k.val) 0 =
      match s.rings[i].enc with
      | .linear16 => xs[k].toInt
      | .mulaw8 => mulawDecode (mulawEncode xs[k].toInt)

/-- A load after a store gives the value for 16-bit samples and within 644 of it for 8-bit samples; the other samples, the bytes outside
the sample and all registers, the arena sizes and declarations among them, are unchanged (20_memory.md R45, R46). -/
def Obligations.LoadAfterStore : Prop :=
  ∀ (s : State) (i : Fin 2) (a : Nat) (v : Int), s.large.mem.wf = true → s.small.mem.wf = true →
    -32768 ≤ v → v ≤ 32767 →
    (s.rings[i].enc = .linear16 → rbLoad (rbStore s i a v) i a = v) ∧
    (s.rings[i].enc = .mulaw8 → rbLoad (rbStore s i a v) i a = mulawDecode (mulawEncode v) ∧
      (rbLoad (rbStore s i a v) i a - v).natAbs ≤ 644) ∧
    (∀ b, b ≠ a → rbLoad (rbStore s i a v) i b = rbLoad s i b) ∧
    (∀ sp, ((rbStore s i a v).arena sp).declared = (s.arena sp).declared ∧
      ((rbStore s i a v).arena sp).size = (s.arena sp).size) ∧
    (∀ sp x, ¬(sp = s.rings[i].space ∧ inSample s.rings[i] a x) → (rbStore s i a v).byte? sp x = s.byte? sp x) ∧
    rbStore s i a v = { s with large := (rbStore s i a v).large, small := (rbStore s i a v).small }

/-! ## Tables -/

/-- 40_tables.md R78: the mu-law error is bounded segment by segment; and the code is lossless on decoded values but for the negative
zero (R77's formula); that -1, -2 and -3 alone encode to it is log entry 21 (DEDUCED), against a sentence of R77. -/
def Obligations.MulawCodeErrorBounds : Prop :=
  (∀ c : Byte, c ≠ 0x80 → mulawEncode (mulawDecode c) = c) ∧ mulawEncode (mulawDecode 0x80) = 0x00 ∧
  (∀ v : Int, -32768 ≤ v → v ≤ 32767 →
    (mulawEncode v = 0x80 ↔ -3 ≤ v ∧ v ≤ -1) ∧
    (v.natAbs ≤ 32635 → (mulawDecode (mulawEncode v) - v).natAbs ≤ 4 * 2 ^ ((mulawEncode v).extractLsb' 4 3).toNat) ∧
    (v.natAbs < 124 → (mulawDecode (mulawEncode v) - v).natAbs ≤ 4) ∧
    (v.natAbs ≤ 32635 → (mulawDecode (mulawEncode v) - v).natAbs ≤ 512) ∧
    (32635 < v.natAbs → mulawDecode (mulawEncode v) = (if v < 0 then -32124 else 32124) ∧
      (mulawDecode (mulawEncode v) - v).natAbs ≤ 644)) ∧
  (mulawDecode (mulawEncode (-32768)) - (-32768)).natAbs = 644

/-! ## Filters -/

/-- `SVFRST`, `SVFSET` and `SVFSTEP` complete, do what 42_svf.md R97, R99 and R101 say to their own instance and leave the other
seven alone (R96). -/
def Obligations.FilterCommandsTouchOneInstance : Prop :=
  ∀ (s : State) (inst : Fin 8), s.fault = false → s.tablesValid = true →
    (∃ t, exec (.svfrst inst) s = .next t ∧ t = { s with svfs := t.svfs, resp := none, cmdcnt := s.cmdcnt + 1 } ∧
      (∀ j, j ≠ inst → t.svfs[j] = s.svfs[j]) ∧
      t.svfs[inst] = { s.svfs[inst] with s1 := 0, s2 := 0, lp := 0, hp := 0, bp := 0, notch := 0 }) ∧
    (∀ (f : BitVec 16) (q : BitVec 32),
      ∃ t, exec (.svfset inst f q) s = .next t ∧ t = { s with svfs := t.svfs, resp := none, cmdcnt := s.cmdcnt + 1 } ∧
        (∀ j, j ≠ inst → t.svfs[j] = s.svfs[j]) ∧ t.svfs[inst] = svfSet s.svfs[inst] f.toNat q.toNat) ∧
    ∀ x : BitVec 32,
      ∃ t, exec (.svfstep inst x) s = .next t ∧ t = { s with svfs := t.svfs, resp := none, cmdcnt := s.cmdcnt + 1 } ∧
        (∀ j, j ≠ inst → t.svfs[j] = s.svfs[j]) ∧
        let v := s.svfs[inst]
        let hp := ((x.toInt * 256 - ((v.r.toNat + v.g.toNat : Nat) : Int) * v.s1.toInt / 65536 - v.s2.toInt) *
          (v.h.toNat : Int)) / 65536
        let bp := (v.g.toNat : Int) * hp / 65536 + v.s1.toInt
        let lp := (v.g.toNat : Int) * bp / 65536 + v.s2.toInt
        t.svfs[inst] =
          { v with
            s1 := BitVec.ofInt 40 (sat40 ((v.g.toNat : Int) * hp / 65536 + bp))
            s2 := BitVec.ofInt 40 (sat40 ((v.g.toNat : Int) * bp / 65536 + lp))
            lp := BitVec.ofInt 32 (sat32 (lp / 256))
            hp := BitVec.ofInt 32 (sat32 (hp / 256))
            bp := BitVec.ofInt 32 (sat32 (bp / 256))
            notch := BitVec.ofInt 32 (sat32 ((hp + lp) / 256)) }

/-- 42_svf.md R99: the coefficient formulas with their clamps, the ranges of the results for every cutoff and Q, the signal state
untouched, and the listed values. -/
def Obligations.FilterCoefficientFormulas : Prop :=
  (∀ (v : Svf) (f q : Nat),
    let f' := min f 32702
    let q' := min (max q 32768) 16777215
    let f2 := f' * f' / 65536
    let g := f' * (205887 + f2 * (677342 + 2674041 * f2 / 65536) / 65536) / 65536
    let r := 2 ^ 32 / q'
    let h := 2 ^ 32 / (65536 + r * g / 65536 + g * g / 65536)
    g ≤ 269617 ∧ 256 ≤ r ∧ r ≤ 131072 ∧ 2505 ≤ h ∧ h ≤ 65536 ∧
    (svfSet v f q).f.toNat = f' ∧ (svfSet v f q).q.toNat = q' ∧ (svfSet v f q).g.toNat = g ∧
    (svfSet v f q).r.toNat = r ∧ (svfSet v f q).h.toNat = h ∧
    svfSet v f q =
      { v with
        f := (svfSet v f q).f, q := (svfSet v f q).q, g := (svfSet v f q).g, r := (svfSet v f q).r,
        h := (svfSet v f q).h }) ∧
  ∀ v : Svf,
    ((svfSet v 6554 65536).g = 21293 ∧ (svfSet v 6554 65536).r = 65536 ∧ (svfSet v 6554 65536).h = 45814) ∧
    ((svfSet v 27 65536).g = 84 ∧ (svfSet v 27 65536).h = 65452) ∧
    ((svfSet v 32702 32768).g = 269617 ∧ (svfSet v 32702 32768).r = 131072 ∧ (svfSet v 32702 32768).h = 2505) ∧
    ((svfSet v 12288 46341).g = 43688 ∧ (svfSet v 12288 46341).r = 92681 ∧ (svfSet v 12288 46341).h = 27454) ∧
    ((svfSet v 1 16777215).g = 3 ∧ (svfSet v 1 16777215).r = 256 ∧ (svfSet v 1 16777215).h = 65536) ∧
    ((svfSet v 0 65536).g = 0 ∧ (svfSet v 0 65536).r = 65536 ∧ (svfSet v 0 65536).h = 65536) ∧
    ((svfSet v 65535 0xFFFFFFFF).f = 32702 ∧ (svfSet v 65535 0xFFFFFFFF).q = 16777215 ∧
      (svfSet v 65535 0xFFFFFFFF).g = 269617 ∧ (svfSet v 65535 0xFFFFFFFF).r = 256 ∧
      (svfSet v 65535 0xFFFFFFFF).h = 3652)

/-! ## Limiter and crossfade -/

/-- `LIM` and `XFADE` complete with the limited and the mixed sample, sign-extended, and change no state
(43_limiter_crossfade.md R104, R106 to R108). -/
def Obligations.LimAndXfadeRespond : Prop :=
  (∀ (s : State) (x : BitVec 32), s.fault = false → s.tablesValid = true →
    let m : Int := min (x.toInt.natAbs : Int) 49152
    let y : Int := min 32767 (m - 4854 * m * m * m / 2 ^ 45)
    exec (.lim x) s = .next
      { s with resp := some (BitVec.ofInt 32 (if x.toInt < 0 then -y else y)), cmdcnt := s.cmdcnt + 1 }) ∧
  ∀ (s : State) (dw dry wet : BitVec 16), s.fault = false → s.tablesValid = true → dw.toNat ≤ 32768 →
    let mixed : Int := dry.toInt * xfLookup tblXfOut dw.toNat / 32768 +
      wet.toInt * 39322 / 32768 * xfLookup tblXfIn dw.toNat / 32768
    exec (.xfade dw dry wet) s = .next
      { s with
        resp := some (BitVec.ofInt 32 (max (-32768) (min mixed 32767)))
        cmdcnt := s.cmdcnt + 1 }

/-- 43_limiter_crossfade.md R105: the soft limiter is odd, monotone, bounded by full scale and by its input, the identity up to
1935, and at full scale from 48725 on. -/
def Obligations.SoftLimiterProperties : Prop :=
  ∀ x : Int,
    softLimit (-x) = -softLimit x ∧
    (∀ y, x ≤ y → softLimit x ≤ softLimit y) ∧
    -32767 ≤ softLimit x ∧ softLimit x ≤ 32767 ∧
    (x.natAbs ≤ 1935 → softLimit x = x) ∧ softLimit 1936 = 1935 ∧
    (softLimit x).natAbs ≤ x.natAbs ∧
    (48725 ≤ x → softLimit x = 32767) ∧ (x ≤ -48725 → softLimit x = -32767) ∧ softLimit 48724 = 32766

/-- The dry/wet ramp: every position of a block of any length lies between the old and the new value, the last is the new value, and
the next `PROCESS` starts from it. Every output sample is `XFADE_MIX` at its ramp position of the input sample and of the sample of
the reverb of the block `FBBUF` keeps; once settled at 0 it is the dry input times 23170, once settled at 32768 it is the wet block
times 1.2 times 23170 (43_limiter_crossfade.md R107, R109, R110, 48_sequencer.md R169 to R171). -/
def Obligations.CrossfadeRampAndEndpoints : Prop :=
  (∀ (prev target n : Nat) (k : Fin n),
    min (prev : Int) target ≤ rampAt prev target n k.val ∧ rampAt prev target n k.val ≤ max (prev : Int) target ∧
    rampAt prev target n (n - 1) = target) ∧
  ∀ (s : State) (size : BitVec 16), s.fault = false → s.inited = true → s.bypass = false → s.silence = false → stable s →
    size.toNat = s.blockSize →
    ∃ t, exec (.process size) s = .next t ∧ t.dwPrev = s.p[5] ∧
      let n := s.blockSize
      let wet := (Config.revProcess s.kernels.rev t.drv.reverb s.p[7] n (blockOf n t.fbbuf)).2
      t.outbuf.length = n ∧
      ∀ (k : Nat) (c : Fin 2), k < n →
        let x := sampleOf s.inbuf c k
        let w := sampleOf wet.toList c k
        let y := sampleOf t.outbuf c k
        let prev : Int := s.dwPrev.toNat
        let dw := (prev + ((k : Int) + 1) * ((s.p[5].toNat : Int) - prev) / (n : Int)).toNat
        y = max (-32768) (min (x * xfLookup tblXfOut dw / 32768 + w * 39322 / 32768 * xfLookup tblXfIn dw / 32768) 32767) ∧
        (s.dwPrev = 0 → s.p[5] = 0 → y = x * 23170 / 32768) ∧
        (s.dwPrev = 32768 → s.p[5] = 32768 → y = max (-32768) (min (w * 39322 / 32768 * 23170 / 32768) 32767))

/-! ## PREPARE -/

/-- `PREPARE` in `Stable` completes and does the background work of the committed mode alone: the search step in Stretch, one
`PV_BUFFER` in Spectral, nothing in the other two (48_sequencer.md R150, R155). -/
def Obligations.PrepareInStableOnlyWorksInTheBackground : Prop :=
  ∀ s : State, s.fault = false → s.inited = true → stable s →
    exec .prepare s = .next
      { s with
        search :=
          if s.mode = .stretch then searchStep s.hw.wsCandPerPrepare (Config.wsolaSimilarity s.kernels.wsola (rbViews s)) s.search
          else s.search
        kernels :=
          if s.mode = .spectral then { s.kernels with pv := Config.pvBuffer s.kernels.pv ⟨s.p, s.drv⟩ }
          else s.kernels
        resp := none
        cmdcnt := s.cmdcnt + 1 }

/-- A `PREPARE` that decides on a lightweight reset completes: filters cleared, pitch shifter and the new engine initialised, the
mode committed; ring buffers, arena bytes, workspace and parameters unchanged (48_sequencer.md R151, R153, R154). That the kernel
states of the engines not committed keep their value is log entry 20 (DESIGN CHOICE; U20 leaves them open). -/
def Obligations.PrepareLightResetEffect : Prop :=
  ∀ s : State, s.fault = false → s.inited = true → lightWanted s →
    let k : KArgs := ⟨s.intSr, s.tblSr, s.channels, s.lofi, s.wsSize, s.blockSize⟩
    ∃ t, exec .prepare s = .next t ∧
      t = { s with
            svfs := t.svfs
            kernels :=
              { s.kernels with
                ps := Config.psInit k
                wsola := if s.mode = .stretch then Config.wsolaInit k else s.kernels.wsola
                loop := if s.mode = .loopingDelay then Config.loopInit k else s.kernels.loop }
            loopSync := false
            search := ⟨false, false, 0, 0, 0, 0⟩
            grains :=
              if s.mode = .granular then ⟨1, 0, Vector.replicate 16 ⟨false, 0, 0, 0, 0, 0, 0, 0⟩⟩ else s.grains
            prevMode := some s.mode
            resp := none
            cmdcnt := s.cmdcnt + 1 } ∧
      ∀ i : Fin 8, t.svfs[i] = { s.svfs[i] with s1 := 0, s2 := 0, lp := 0, hp := 0, bp := 0, notch := 0 }

/-- A `PREPARE` that decides on a full re-partition that fits completes: freeze forced off, ring buffers and workspace bound as
20_memory.md R50 plans them with zeroed samples, filters, `UP_PREV`, post effects and the engine initialised, the mode committed
(48_sequencer.md R152, R154, R155). That the kernel states of the engines not committed keep their value is log entry 20 (DESIGN
CHOICE; U20 leaves them open). -/
def Obligations.PrepareFullResetEffect : Prop :=
  ∀ s : State, s.fault = false → s.inited = true → fullWanted s → ¬ partitionMisfit s → s.large.mem.wf = true →
    s.small.mem.wf = true →
    ∃ t, exec .prepare s = .next t ∧
      t = { s with
            p := t.p
            large := t.large
            small := t.small
            rings := t.rings
            wsSpace := if s.mono then .small else .large
            wsBase := t.wsBase
            wsSize := t.wsSize
            svfs := t.svfs
            upPrev := ⟨0, 0⟩
            kernels := t.kernels
            loopSync := false
            search := ⟨false, false, 0, 0, 0, 0⟩
            grains :=
              if s.mode = .granular then ⟨1, 0, Vector.replicate 16 ⟨false, 0, 0, 0, 0, 0, 0, 0⟩⟩ else s.grains
            resetPending := false
            prevMode := some s.mode
            resp := none
            cmdcnt := s.cmdcnt + 1 } ∧
      (∀ sp, (t.arena sp).declared = (s.arena sp).declared ∧ (t.arena sp).size = (s.arena sp).size) ∧
      (∀ k : Fin 10, k ≠ 9 → t.p[k] = s.p[k]) ∧
      (∀ b, t.p[9].getLsbD b = if b = 0 then false else s.p[9].getLsbD b) ∧
      t.wsBase.toNat = (if s.mono then 0 else s.small.size.toNat) ∧ t.wsSize.toNat = workspaceBytes s ∧
      t.rings[0] = ⟨true, s.format, .large, 0, t.rings[0].size, t.rings[0].n, 0, 0, Vector.replicate 8 0⟩ ∧
      t.rings[0].size.toNat = regionBytes s ∧ t.rings[0].n.toNat = regionSamples s ∧
      t.rings[1] = (if s.mono then ⟨false, .linear16, .large, 0, 0, 0, 0, 0, Vector.replicate 8 0⟩
        else ⟨true, s.format, .small, 0, t.rings[0].size, t.rings[0].n, 0, 0, Vector.replicate 8 0⟩) ∧
      (∀ sp x, t.byte? sp x =
        if sp = t.wsSpace ∧ t.wsBase.toNat ≤ x ∧ x < t.wsBase.toNat + t.wsSize.toNat then none
        else if (sp = .large ∨ s.mono = false) ∧ x < regionBytes s then some 0
        else s.byte? sp x) ∧
      (∀ i : Fin 8, t.svfs[i] = { s.svfs[i] with s1 := 0, s2 := 0, lp := 0, hp := 0, bp := 0, notch := 0 }) ∧
      let k : KArgs := ⟨s.intSr, s.tblSr, s.channels, s.lofi, t.wsSize, s.blockSize⟩
      t.kernels =
        ⟨if s.mode = .stretch then Config.wsolaInit k else s.kernels.wsola,
          if s.mode = .spectral then Config.pvBuffer (Config.pvInit k) ⟨t.p, s.drv⟩ else s.kernels.pv,
          if s.mode = .loopingDelay then Config.loopInit k else s.kernels.loop,
          Config.diffInit k, Config.psInit k, Config.revInit k⟩

/-- 20_memory.md R51: after a committed partition the regions of `RB[0]`, of `RB[1]` if bound and of the workspace are pairwise
disjoint, and each lies inside its arena. -/
def Obligations.PartitionRegionsAreDisjoint : Prop :=
  ∀ s t : State, s.fault = false → fullWanted s → exec .prepare s = .next t → t.fault = false →
    (∀ i : Fin 2, t.rings[i].bound = true →
      t.rings[i].base.toNat + t.rings[i].size.toNat ≤ (t.arena t.rings[i].space).size.toNat) ∧
    t.wsBase.toNat + t.wsSize.toNat ≤ (t.arena t.wsSpace).size.toNat ∧
    ∀ sp x,
      ¬(inRegion t.rings[0] sp x ∧ inRegion t.rings[1] sp x) ∧
      ∀ i : Fin 2, ¬(inRegion t.rings[i] sp x ∧ sp = t.wsSpace ∧ t.wsBase.toNat ≤ x ∧
        x < t.wsBase.toNat + t.wsSize.toNat)

/-- 48_sequencer.md R178: a full re-partition leaves freeze off and clears the audio; a lightweight reset or none keeps freeze, the
ring buffers and the recorded audio. -/
def Obligations.FreezeAsymmetry : Prop :=
  ∀ s t : State, s.fault = false → s.large.mem.wf = true → s.small.mem.wf = true → exec .prepare s = .next t →
    t.fault = false →
    (fullWanted s → t.p[9].getLsbD 0 = false ∧
      ∀ i : Fin 2, t.rings[i].bound = true → ∀ a, a < t.rings[i].n.toNat → rbLoad t i a = 0) ∧
    (¬ fullWanted s → t.p[9].getLsbD 0 = s.p[9].getLsbD 0 ∧ t.rings = s.rings ∧ ∀ sp x, t.byte? sp x = s.byte? sp x)

/-! ## PROCESS -/

/-- 48_sequencer.md R175: with bypass on, `PROCESS` copies `INBUF` to `OUTBUF`, is counted, and changes nothing else. -/
def Obligations.BypassCopiesTheInput : Prop :=
  ∀ (s : State) (size : BitVec 16), s.fault = false → s.inited = true → s.bypass = true → size.toNat = s.blockSize →
    exec (.process size) s = .next { s with outbuf := s.inbuf, resp := none, cmdcnt := s.cmdcnt + 1 }

/-- While silence is on, a reset is pending or the mode is not committed, an unbypassed `PROCESS` writes an all-zero block, is
counted, and changes nothing else; so it does right after a `SETMODE` to a mode other than the committed one (48_sequencer.md R158,
R176). -/
def Obligations.ClosedGateIsSilent : Prop :=
  (∀ (s : State) (size : BitVec 16), s.fault = false → s.inited = true → s.bypass = false → size.toNat = s.blockSize →
    (s.silence = true ∨ s.resetPending = true ∨ s.prevMode ≠ some s.mode) →
    exec (.process size) s = .next
      { s with outbuf := List.replicate s.blockSize ⟨0, 0⟩, resp := none, cmdcnt := s.cmdcnt + 1 }) ∧
  ∀ (s : State) (size : BitVec 16) (k : BitVec 8) (m : Mode), s.fault = false → s.inited = true → s.bypass = false →
    size.toNat = s.blockSize → k.toNat = m.code → s.prevMode ≠ some m →
    ∃ t, exec (.setmode k) s = .next t ∧
      exec (.process size) t = .next
        { t with outbuf := List.replicate s.blockSize ⟨0, 0⟩, resp := none, cmdcnt := t.cmdcnt + 1 }

/-- A `PROCESS` that passes its gate completes, and what it changes is the state of the units that run in the committed mode and
quality, each to what its rule gives. The freeze follower moves one step. The filters: 0 and 1 get the 20 Hz coefficients and one step
for each `FBBUF` sample, 2 and 3 in low fidelity one for each blended sample, 4 to 7 in Stretch and Looping Delay one for each sample
of the tone-shaping cascade. The internal block the engine played comes to the full rate as the 2x interpolation from `UP_PREV`, passes
the diffuser, the pitch shifter and the cascade as the mode says, and is what `FBBUF` keeps and the reverb gets. `UP_PREV` is the
last internal frame in low fidelity. Each kernel that runs gets the ring buffers as recorded and the parameters of this block;
`LOOP_SYNC` is what `LOOP_PLAY` returned, and the pitch shifter runs only in Looping Delay and there not while frozen and not
synchronised; the search is handed over and posted. The state of every other unit is unchanged (48_sequencer.md R156, R159 to R161,
R164 to R170, 45_wsola.md R126, 46_spectral.md R133). -/
def Obligations.ProcessChangesOnlyItsUnits : Prop :=
  ∀ (s : State) (size : BitVec 16), s.fault = false → s.inited = true → s.bypass = false → s.silence = false → stable s →
    size.toNat = s.blockSize →
    ∃ t, exec (.process size) s = .next t ∧
      t = { s with
            freezeLp := t.freezeLp
            drv := t.drv
            dwPrev := s.p[5]
            svfs := t.svfs
            large := t.large
            small := t.small
            rings := t.rings
            grains := t.grains
            search := t.search
            kernels := t.kernels
            loopSync := t.loopSync
            upPrev := t.upPrev
            fbbuf := t.fbbuf
            outbuf := t.outbuf
            resp := none
            cmdcnt := s.cmdcnt + 1 } ∧
      (∀ sp, (t.arena sp).declared = (s.arena sp).declared ∧ (t.arena sp).size = (s.arena sp).size) ∧
      t.freezeLp = freezeFollow (s.p[9].getLsbD 0) s.freezeLp ∧
      (s.mode ≠ .granular → t.grains = s.grains) ∧
      (s.mode ≠ .stretch → t.search = s.search ∧ t.kernels.wsola = s.kernels.wsola) ∧
      (s.mode ≠ .loopingDelay →
        t.loopSync = s.loopSync ∧ t.kernels.loop = s.kernels.loop ∧ t.kernels.ps = s.kernels.ps) ∧
      (s.mode ≠ .spectral → t.kernels.pv = s.kernels.pv) ∧
      (s.mode = .spectral → t.kernels.diff = s.kernels.diff) ∧
      (s.quality.getLsbD 1 = false → t.upPrev = s.upPrev ∧ ∀ c, svfOf t 1 c = svfOf s 1 c) ∧
      (s.mode = .granular ∨ s.mode = .spectral → ∀ c, svfOf t 2 c = svfOf s 2 c ∧ svfOf t 3 c = svfOf s 3 c) ∧
      let n := s.blockSize
      let ni := if s.quality.getLsbD 1 then n / 2 else n
      let params : KParams := ⟨s.p, t.drv⟩
      let played := upsampledBlock s (engineBlock s) n
      let diffused := Config.diffProcess s.kernels.diff t.drv.diff n played
      let spread := if s.mode = .spectral then played else diffused.2
      let shifted := Config.psProcess s.kernels.ps (pitchRatio s.p[2].toInt) s.p[1] n spread
      let shifts := s.mode = .loopingDelay ∧ (s.p[9].getLsbD 0 = false ∨ t.loopSync = true)
      let pitched := if shifts then shifted.2 else spread
      let shaped := if s.mode = .stretch ∨ s.mode = .loopingDelay then cascadedBlock s pitched else pitched
      (engineBlock s).length = ni ∧
      (s.quality.getLsbD 1 = true → t.upPrev = (engineBlock s).getD (ni - 1) ⟨0, 0⟩) ∧
      (∀ c, svfOf t 0 c = feedbackFilter s c n) ∧
      (s.quality.getLsbD 1 = true → ∀ c, svfOf t 1 c = decimationFilter s c n) ∧
      (s.mode = .stretch ∨ s.mode = .loopingDelay → ∀ c,
        svfOf t 2 c = shapeLowFilter s pitched.toList c n ∧ svfOf t 3 c = shapeHighFilter s pitched.toList c n) ∧
      t.fbbuf = shaped.toList ∧
      t.kernels.rev = (Config.revProcess s.kernels.rev t.drv.reverb s.p[7] n shaped).1 ∧
      (s.mode ≠ .spectral → t.kernels.diff = diffused.1) ∧
      (s.mode = .stretch →
        let out := Config.wsolaPlay s.kernels.wsola (rbViews t) params ni
          (if s.search.done then some ⟨s.search.bestOffset, s.search.bestScore⟩ else none)
        t.kernels.wsola = out.1 ∧ engineBlock s = out.2.1.toList ∧
        t.search =
          match out.2.2 with
          | some c => ⟨true, false, 0, BitVec.ofNat 16 (c.val + 1), 0, 0⟩
          | none => { s.search with done := false }) ∧
      (s.mode = .loopingDelay →
        let out := Config.loopPlay s.kernels.loop (rbViews t) params ni
        t.kernels.loop = out.1 ∧ engineBlock s = out.2.1.toList ∧ t.loopSync = out.2.2 ∧
        t.kernels.ps = if s.p[9].getLsbD 0 = true ∧ t.loopSync = false then s.kernels.ps else shifted.1) ∧
      (s.mode = .spectral →
        let out := Config.pvPlay s.kernels.pv params (internalBlock s ni) ni
        t.kernels.pv = out.1 ∧ engineBlock s = out.2.toList)

/-- 48_sequencer.md R162: a `PROCESS` that passes its gate writes all nine derived-parameter registers from the parameters of this
block. -/
def Obligations.ProcessDerivesItsParameters : Prop :=
  ∀ (s : State) (size : BitVec 16), s.fault = false → s.inited = true → s.bypass = false → s.silence = false → stable s →
    ParamsOk s → size.toNat = s.blockSize →
    ∃ t, exec (.process size) s = .next t ∧
      let size : Int := s.p[1].toNat
      let dens : Int := s.p[3].toNat
      let tex : Int := s.p[4].toNat
      let fb : Int := s.p[7].toNat
      let far : Int := dens - 16384
      (t.drv.overlap.toNat : Int) = 32768 + (far.natAbs * 2 * (far.natAbs * 2) / 32768 : Nat) * 7 ∧
      (t.drv.det = true ↔ dens < 16384) ∧
      (t.drv.shape.toNat : Int) = (if tex < 24576 then tex * 4 / 3 else 32768) ∧
      (t.drv.diff.toNat : Int) =
        (if s.mode = .granular then (if 24576 < tex then (tex - 24576) * 4 else 0) else dens) ∧
      (t.drv.quant.toNat : Int) = tex ∧
      (t.drv.refresh.toNat : Int) = 328 + dens * 32440 / 32768 ∧
      (t.drv.warp.toNat : Int) = 16384 + 4 * ((size - 16384) * (size - 16384) / 32768 * (size - 16384) / 32768) ∧
      (t.drv.phrand.toNat : Int) = max 0 (min (far * far / 32768 * 137626 / 32768 - 1638) 32768) ∧
      (t.drv.reverb.toNat : Int) =
        min ((s.p[8].toNat : Int) * 31130 / 32768 + fb * fb / 32768 * (t.freezeLp.toNat : Int) / 32768) 32768

/-- What step 6b does to the ring buffers and the arenas in a run: nothing in Spectral mode; while frozen it arms the fades and stores
no byte; otherwise it advances the cursors by the internal block length and stores only to the samples from the cursors on, in mono
to `RB[0]` alone. The `k`-th sample from a cursor on then loads as the `k`-th sample of the internal block in that channel, while the
fade runs as the ramp from its old content to it, exactly or through the mu-law code, and every tail entry is what its sample loads
as. The internal block is the input, downmixed in mono, plus the soft-limited high-pass of `FBBUF` at the feedback gain,
`sat16(W + fb_gain * SOFT_LIMIT(HP) >> 15)`, and in low fidelity every second low-pass output of that (48_sequencer.md R159 to R161,
R163, 46_spectral.md R133, 41_ring_buffer.md R86, R87, 20_memory.md R49). -/
def Obligations.ProcessRecordsTheBlock : Prop :=
  ∀ (s : State) (size : BitVec 16), s.Inv → s.fault = false → s.inited = true → s.bypass = false → s.silence = false →
    stable s → size.toNat = s.blockSize →
    ∃ t, exec (.process size) s = .next t ∧
      let ni := if s.quality.getLsbD 1 then s.blockSize / 2 else s.blockSize
      (s.mode = .spectral → t.rings = s.rings ∧ ∀ sp x, t.byte? sp x = s.byte? sp x) ∧
      (s.mode ≠ .spectral → s.p[9].getLsbD 0 = true →
        (∀ sp x, t.byte? sp x = s.byte? sp x) ∧ t.rings[0] = { s.rings[0] with fade := 64 } ∧
        t.rings[1] = if s.quality.getLsbD 0 then s.rings[1] else { s.rings[1] with fade := 64 }) ∧
      (s.mode ≠ .spectral → s.p[9].getLsbD 0 = false →
        t.rings[0] =
          { s.rings[0] with wcur := t.rings[0].wcur, fade := t.rings[0].fade, tail := t.rings[0].tail } ∧
        t.rings[0].wcur.toNat = (s.rings[0].wcur.toNat + ni) % s.rings[0].n.toNat ∧
        t.rings[0].fade.toNat = s.rings[0].fade.toNat - ni ∧
        (∀ k, k < ni →
          let a := (s.rings[0].wcur.toNat + k) % s.rings[0].n.toNat
          rbLoad t 0 a = codedAs s.rings[0].enc
            (fadedValue s.rings[0].fade.toNat k (rbLoad s 0 a) (internalSample s 0 k))) ∧
        (∀ j : Fin 8, t.rings[0].tail[j].toInt = rbLoad t 0 j.val) ∧
        (s.quality.getLsbD 0 = true → t.rings[1] = s.rings[1] ∧
          ∀ sp x, ¬ inWrite s.rings[0] ni sp x → t.byte? sp x = s.byte? sp x) ∧
        (s.quality.getLsbD 0 = false →
          t.rings[1] =
            { s.rings[1] with wcur := t.rings[1].wcur, fade := t.rings[1].fade, tail := t.rings[1].tail } ∧
          t.rings[1].wcur.toNat = (s.rings[1].wcur.toNat + ni) % s.rings[1].n.toNat ∧
          t.rings[1].fade.toNat = s.rings[1].fade.toNat - ni ∧
          (∀ k, k < ni →
            let a := (s.rings[1].wcur.toNat + k) % s.rings[1].n.toNat
            rbLoad t 1 a = codedAs s.rings[1].enc
              (fadedValue s.rings[1].fade.toNat k (rbLoad s 1 a) (internalSample s 1 k))) ∧
          (∀ j : Fin 8, t.rings[1].tail[j].toInt = rbLoad t 1 j.val) ∧
          ∀ sp x, ¬ inWrite s.rings[0] ni sp x → ¬ inWrite s.rings[1] ni sp x → t.byte? sp x = s.byte? sp x))

/-- The freeze follower moves a sixteenth of the distance to its target, rounded away from zero, and so reaches it exactly: 128 blocks
from any value take it to 32768 while frozen and to 0 while not (48_sequencer.md R160). -/
def Obligations.FreezeFollowerReachesItsTarget : Prop :=
  ∀ lp : Half, lp.toNat ≤ 32768 →
    (freezeFollow true lp).toNat = lp.toNat + (32768 - lp.toNat + 15) / 16 ∧
    (freezeFollow false lp).toNat = lp.toNat - (lp.toNat + 15) / 16 ∧
    (∀ frozen, (freezeFollow frozen lp).toNat ≤ 32768) ∧
    (Nat.repeat (freezeFollow true) 128 lp) = 32768 ∧ (Nat.repeat (freezeFollow false) 128 lp) = 0 ∧
    freezeFollow true 32768 = 32768 ∧ freezeFollow false 0 = 0

/-- 48_sequencer.md R177: the derived parameters of two `PROCESS` commands that pass their gates agree wherever the parameters each
depends on agree, whatever the audio, the ring buffers, the generator and the earlier values were. -/
def Obligations.DerivedParametersArePure : Prop :=
  ∀ (s s' t t' : State) (size size' : BitVec 16), s.bypass = false → s'.bypass = false → s.silence = false →
    s'.silence = false → stable s → stable s' → s.fault = false → s'.fault = false → exec (.process size) s = .next t →
    exec (.process size') s' = .next t' → t.fault = false → t'.fault = false →
    (s.p[3] = s'.p[3] → t.drv.overlap = t'.drv.overlap ∧ t.drv.det = t'.drv.det ∧ t.drv.refresh = t'.drv.refresh ∧
      t.drv.phrand = t'.drv.phrand) ∧
    (s.p[4] = s'.p[4] → t.drv.shape = t'.drv.shape ∧ t.drv.quant = t'.drv.quant) ∧
    (s.p[1] = s'.p[1] → t.drv.warp = t'.drv.warp) ∧
    (s.p[3] = s'.p[3] → s.p[4] = s'.p[4] → s.mode = s'.mode → t.drv.diff = t'.drv.diff) ∧
    (s.p[7] = s'.p[7] → s.p[8] = s'.p[8] → t.freezeLp = t'.freezeLp → t.drv.reverb = t'.drv.reverb)

/-! ## Engines -/

/-- A grain engine over silent ring buffers plays silence, whatever its pool holds, and still draws from its generator when the spawn
decision is random (44_grain.md R115, R120). -/
def Obligations.SilentBuffersPlaySilence : Prop :=
  ∀ (s : State) (ni : Nat), 0 < s.rings[0].n.toNat → s.rings[0].tail[0] = 0 → s.rings[1].tail[0] = 0 →
    (∀ a, a < s.rings[0].n.toNat → rbLoad s 0 a = 0) →
    (s.mono = false → s.rings[1].n = s.rings[0].n ∧ ∀ a, a < s.rings[1].n.toNat → rbLoad s 1 a = 0) →
    (grainPlay s ni).2 = List.replicate ni ⟨0, 0⟩ ∧
    (s.drv.det = false → (spawnDecision s ni).prng = s.grains.prng * 1664525 + 1013904223)

/-- A posted search of `count` candidates, scored by one function, is done after as many background steps as cover it at `per` a step,
and then holds the least candidate of the greatest score (45_wsola.md R127, R128). -/
def Obligations.SearchFindsTheFirstBestCandidate : Prop :=
  ∀ (score : Half → Word) (w : Search) (c : Fin Config.wsCandMax) (per k : Nat),
    let v := Nat.repeat (searchStep per score) k (searchAfterPlay w (some c))
    v.candCount.toNat = c.val + 1 ∧ v.candIdx.toNat = min (per * k) (c.val + 1) ∧
    (v.done = true ↔ c.val + 1 ≤ per * k) ∧ (v.pending = true ↔ per * k < c.val + 1) ∧
    (0 < per * k → v.bestOffset.toNat < v.candIdx.toNat ∧ v.bestScore = score v.bestOffset ∧
      ∀ j : Half, j.toNat < v.candIdx.toNat →
        (score j).toInt ≤ v.bestScore.toInt ∧ (j.toNat < v.bestOffset.toNat → (score j).toInt < v.bestScore.toInt))

/-- What a `PROCESS` in Granular mode does to the grain registers in a run: the spawn decision with its counter and its draw, the
grains spawned into the lowest free slots, one draw each, with the start, length, ratio and gains of their rule, and the advance of
every playing grain by the internal block length, ending at its length; a slot that is neither playing nor spawned into is unchanged.
And what the engine plays: in sample `j`, the grains that are playing or spawned and have not reached their length, each the
interpolated source sample at its position times its envelope times its gain, summed over the slots, times `2^30 / DRV_OVERLAP`,
saturated (44_grain.md R112, R114 to R116, R118). -/
def Obligations.ProcessWritesTheGrainRegisters : Prop :=
  ∀ (s : State) (size : BitVec 16), s.Inv → s.fault = false → s.inited = true → s.bypass = false → s.silence = false →
    stable s → size.toNat = s.blockSize → s.mode = .granular →
    ∃ t, exec (.process size) s = .next t ∧
      let next : BitVec 32 → BitVec 32 := fun x => x * 1664525 + 1013904223
      let ni : Nat := if s.quality.getLsbD 1 then s.blockSize / 2 else s.blockSize
      let n : Int := s.rings[0].n.toNat
      let ratio : Int := pitchRatio s.p[2].toInt
      let len : Int := min (grainSize s.p[1].toNat) ((n - 8) * 65536 / (2 * ratio + 65536))
      let period : Nat := (max 1 (len * 32768 / (t.drv.overlap.toNat : Int))).toNat
      let ctr : Nat := s.grains.spawnCtr.toNat + ni
      let q : Nat := ni * 65536 / period
      let draws : Nat := if t.drv.det then 0 else 1
      let due : Nat :=
        min (if t.drv.det then ctr / period
          else q / 65536 + (if (next s.grains.prng).toNat / 65536 < q % 65536 then 1 else 0)) 16
      let count : Nat := if len < 16 then 0 else if s.p[9].getLsbD 1 then max due 1 else due
      let lsrc : Int := len * ratio / 65536 + 1
      let back : Int := lsrc + 2 + (s.p[0].toNat : Int) * (n - 4 - 2 * lsrc - len) / 32768
      t.grains.spawnCtr.toNat = (if t.drv.det then ctr % period else 0) ∧
      t.grains.prng = Nat.repeat next (draws + min count (idleBelow s.grains 16)) s.grains.prng ∧
      (∀ (j : Nat) (c : Fin 2), j < ni → sampleOf (engineBlock s) c j =
        let voices := (List.finRange 16).filterMap fun (k : Fin 16) =>
          let g : GrainSlot := s.grains.slots[k]
          let g' : GrainSlot := t.grains.slots[k]
          let phase := (if g.active then g.phase.toNat else 0) + j
          if (g.active = true ∨ idleBelow s.grains k.val < count) ∧ phase < g'.len.toNat then some (g', phase) else none
        grainSample t voices c) ∧
      ∀ k : Fin 16,
        let g := s.grains.slots[k]
        let g' := t.grains.slots[k]
        if g.active = true then
          g' = { g with phase := g'.phase, active := g'.active } ∧
          g'.phase.toNat = min (g.phase.toNat + ni) g.len.toNat ∧
          (g'.active = true ↔ g.phase.toNat + ni < g.len.toNat)
        else if idleBelow s.grains k.val < count then
          let draw : Nat := (Nat.repeat next (draws + idleBelow s.grains k.val + 1) s.grains.prng).toNat / 65536
          let pan : Int := 16384 + ((draw : Int) - 32768) * (s.p[6].toNat : Int) / 65536
          (g'.startHi.toNat : Int) = ((t.rings[0].wcur.toNat : Int) - 1 - back) % n ∧ g'.startLo = 0 ∧
          (g'.len.toNat : Int) = len ∧ (g'.ratio.toNat : Int) = ratio ∧
          (g'.gainL.toNat : Int) = min 32768 (2 * (32768 - pan)) ∧ (g'.gainR.toNat : Int) = min 32768 (2 * pan) ∧
          (g'.phase.toNat : Int) = min (ni : Int) len ∧ (g'.active = true ↔ (ni : Int) < len)
        else g' = g
end

