-- ==== Sys2Proof/Laws/Fields.lean ====
section
/-! SUPPORT. The fields of an encoded word (30_encoding.md R62): what `packWord`, `packWordD` and the `A` field builders hold. -/

namespace Sys2Proof

theorem append_toNat {m n : Nat} (x : BitVec m) (y : BitVec n) : (x ++ y).toNat = x.toNat * 2 ^ n + y.toNat := by
  rw [BitVec.toNat_append, ← Nat.shiftLeft_add_eq_or_of_lt y.isLt, Nat.shiftLeft_eq]

/-- A packed word as a number. -/
theorem packWord_toNat (opc a : BitVec 8) (b : BitVec 16) (c : BitVec 32) :
    (packWord opc a b c).toNat = opc.toNat * 2 ^ 56 + a.toNat * 2 ^ 48 + b.toNat * 2 ^ 32 + c.toNat := by
  simp only [packWord, append_toNat]
  omega

/-- A packed word of format `D` as a number. -/
theorem packWordD_toNat (opc a : BitVec 8) (base size : BitVec 24) :
    (packWordD opc a base size).toNat = opc.toNat * 2 ^ 56 + a.toNat * 2 ^ 48 + base.toNat * 2 ^ 24 + size.toNat := by
  simp only [packWordD, append_toNat]
  omega

theorem aFlag0_eq (w : Cmd) : aFlag0 w = (aField w).getLsbD 0 := by simp [aFlag0, aField]

theorem aFlag1_eq (w : Cmd) : aFlag1 w = (aField w).getLsbD 1 := by simp [aFlag1, aField]

theorem aFlag2_eq (w : Cmd) : aFlag2 w = (aField w).getLsbD 2 := by simp [aFlag2, aField]

theorem filterOf_eq (w : Cmd) : filterOf w = ((aField w).extractLsb' 0 3).toFin := by
  have h : w.extractLsb' 48 3 = (aField w).extractLsb' 0 3 := by
    apply BitVec.eq_of_getLsbD_eq
    intro k hk
    simp [aField, hk, show k < 8 by omega]
  rw [filterOf, h]

theorem cHiField_eq (w : Cmd) : cHiField w = (cField w).extractLsb' 16 16 := by
  simp [cHiField, cField, BitVec.extractLsb'_extractLsb'_of_le]

theorem cLoField_eq (w : Cmd) : cLoField w = (cField w).extractLsb' 0 16 := by
  simp [cLoField, cField, BitVec.extractLsb'_extractLsb'_of_le]

section

variable (opc a : BitVec 8) (b : BitVec 16) (c : BitVec 32) (base size : BitVec 24)

@[simp] theorem opcField_packWord : opcField (packWord opc a b c) = opc := by
  apply BitVec.eq_of_toNat_eq
  rw [opcField, BitVec.extractLsb'_toNat, packWord_toNat, Nat.shiftRight_eq_div_pow]
  omega

@[simp] theorem aField_packWord : aField (packWord opc a b c) = a := by
  apply BitVec.eq_of_toNat_eq
  rw [aField, BitVec.extractLsb'_toNat, packWord_toNat, Nat.shiftRight_eq_div_pow]
  omega

@[simp] theorem bField_packWord : bField (packWord opc a b c) = b := by
  apply BitVec.eq_of_toNat_eq
  rw [bField, BitVec.extractLsb'_toNat, packWord_toNat, Nat.shiftRight_eq_div_pow]
  omega

@[simp] theorem cField_packWord : cField (packWord opc a b c) = c := by
  apply BitVec.eq_of_toNat_eq
  rw [cField, BitVec.extractLsb'_toNat, packWord_toNat, Nat.shiftRight_eq_div_pow]
  omega

@[simp] theorem opcField_packWordD : opcField (packWordD opc a base size) = opc := by
  apply BitVec.eq_of_toNat_eq
  rw [opcField, BitVec.extractLsb'_toNat, packWordD_toNat, Nat.shiftRight_eq_div_pow]
  omega

@[simp] theorem aField_packWordD : aField (packWordD opc a base size) = a := by
  apply BitVec.eq_of_toNat_eq
  rw [aField, BitVec.extractLsb'_toNat, packWordD_toNat, Nat.shiftRight_eq_div_pow]
  omega

@[simp] theorem baseField_packWordD : baseField (packWordD opc a base size) = base := by
  apply BitVec.eq_of_toNat_eq
  rw [baseField, BitVec.extractLsb'_toNat, packWordD_toNat, Nat.shiftRight_eq_div_pow]
  omega

@[simp] theorem sizeField_packWordD : sizeField (packWordD opc a base size) = size := by
  apply BitVec.eq_of_toNat_eq
  rw [sizeField, BitVec.extractLsb'_toNat, packWordD_toNat, Nat.shiftRight_eq_div_pow]
  omega

end

/-- The high and the low half of a packed pair. -/
@[simp] theorem extract_pair_hi (x y : BitVec 16) : (x ++ y).extractLsb' 16 16 = x := by
  apply BitVec.eq_of_toNat_eq
  rw [BitVec.extractLsb'_toNat, append_toNat, Nat.shiftRight_eq_div_pow]
  omega

@[simp] theorem extract_pair_lo (x y : BitVec 16) : (x ++ y).extractLsb' 0 16 = y := by
  apply BitVec.eq_of_toNat_eq
  rw [BitVec.extractLsb'_toNat, append_toNat, Nat.shiftRight_eq_div_pow]
  omega

/-- The flags an `A` field was built from. -/
@[simp] theorem aFlags_getLsbD_zero (f2 f1 f0 : BitVec 1) : (aFlags f2 f1 f0).getLsbD 0 = f0.getLsbD 0 := by
  revert f2 f1 f0
  decide

@[simp] theorem aFlags_getLsbD_one (f2 f1 f0 : BitVec 1) : (aFlags f2 f1 f0).getLsbD 1 = f1.getLsbD 0 := by
  revert f2 f1 f0
  decide

@[simp] theorem aFlags_getLsbD_two (f2 f1 f0 : BitVec 1) : (aFlags f2 f1 f0).getLsbD 2 = f2.getLsbD 0 := by
  revert f2 f1 f0
  decide

/-- No bit above the flags is set. -/
theorem aFlags_lt (f2 f1 f0 : BitVec 1) : (aFlags f2 f1 f0).toNat < 8 := by
  revert f2 f1 f0
  decide

theorem aFlags_lt_two (f1 f0 : BitVec 1) : (aFlags 0 f1 f0).toNat < 4 := by
  revert f1 f0
  decide

theorem aFlags_lt_one (f0 : BitVec 1) : (aFlags 0 0 f0).toNat < 2 := by
  revert f0
  decide

/-- The filter instance an `A` field was built from. -/
@[simp] theorem filterBits_toFin (i : Fin 8) : ((filterBits i).extractLsb' 0 3).toFin = i := by
  revert i
  decide

theorem filterBits_lt (i : Fin 8) : (filterBits i).toNat < 8 := by
  revert i
  decide

@[simp] theorem spaceOf_code (sp : Space) : spaceOf (sp.code.getLsbD 0) = sp := by cases sp <;> rfl

@[simp] theorem formatOf_code (e : SampleFormat) : formatOf (e.code.getLsbD 0) = e := by cases e <;> rfl

@[simp] theorem ringOf_ringBit (i : Fin 2) : ringOf ((ringBit i).getLsbD 0) = i := by
  revert i
  decide

@[simp] theorem bit_getLsbD (b : Bool) : (bit b).getLsbD 0 = b := by cases b <;> rfl

end Sys2Proof
end

