-- ==== Sys2Proof/Laws/Memory.lean ====
section
/-! SUPPORT. The laws of arena bytes: what a read gives after each memory operation, and that each operation keeps the
canonical form `Memory.wf`. -/

namespace Sys2Proof.Machine

/-! ## Ranges -/

@[simp] theorem rangesMem_nil (x : Nat) : rangesMem [] x = false := rfl

theorem rangesMem_cons (a b : Nat) (rest : List (Nat × Nat)) (x : Nat) :
    rangesMem ((a, b) :: rest) x = true ↔ (a ≤ x ∧ x < b) ∨ rangesMem rest x = true := by
  simp [rangesMem]

theorem rangesMem_append (xs ys : List (Nat × Nat)) (x : Nat) :
    rangesMem (xs ++ ys) x = true ↔ rangesMem xs x = true ∨ rangesMem ys x = true := by
  simp [rangesMem]

theorem rangesOrdered_cons (k a b : Nat) (rest : List (Nat × Nat)) :
    rangesOrdered k ((a, b) :: rest) = true ↔ k ≤ a ∧ a < b ∧ rangesOrdered (b + 1) rest = true := by
  simp [rangesOrdered, and_assoc]

theorem rangesOrdered_mono {j k : Nat} (hjk : j ≤ k) {xs : List (Nat × Nat)} (h : rangesOrdered k xs = true) :
    rangesOrdered j xs = true := by
  cases xs with
  | nil => rfl
  | cons r rest =>
    obtain ⟨a, b⟩ := r
    rw [rangesOrdered_cons] at h ⊢
    exact ⟨le_trans hjk h.1, h.2⟩

/-- A member of ranges from `k` on is at least `k`. -/
theorem le_of_rangesMem {xs : List (Nat × Nat)} {k x : Nat} (h : rangesOrdered k xs = true)
    (hx : rangesMem xs x = true) : k ≤ x := by
  induction xs generalizing k with
  | nil => simp at hx
  | cons r rest ih =>
    obtain ⟨a, b⟩ := r
    rw [rangesOrdered_cons] at h
    rcases (rangesMem_cons a b rest x).mp hx with hx | hx
    · omega
    · have := ih h.2.2 hx
      omega

/-- What `rangesAdd` holds: the added range and what was held before. -/
theorem rangesMem_add {xs : List (Nat × Nat)} {k lo hi : Nat} (h : rangesOrdered k xs = true) (hlt : lo < hi) (x : Nat) :
    rangesMem (rangesAdd lo hi xs) x = true ↔ (lo ≤ x ∧ x < hi) ∨ rangesMem xs x = true := by
  induction xs generalizing k lo hi with
  | nil => simp [rangesAdd, rangesMem]
  | cons r rest ih =>
    obtain ⟨a, b⟩ := r
    rw [rangesOrdered_cons] at h
    unfold rangesAdd
    split
    · rw [rangesMem_cons, rangesMem_cons, ih h.2.2 hlt]
      tauto
    · split
      · rw [rangesMem_cons lo hi]
      · rw [ih h.2.2 (by omega), rangesMem_cons]
        constructor
        · rintro (hx | hx)
          · by_cases h1 : lo ≤ x ∧ x < hi
            · exact .inl h1
            · exact .inr (.inl (by omega))
          · exact .inr (.inr hx)
        · rintro (hx | hx | hx)
          · exact .inl (by omega)
          · exact .inl (by omega)
          · exact .inr hx

theorem rangesOrdered_add {xs : List (Nat × Nat)} {k lo hi : Nat} (h : rangesOrdered k xs = true) (hk : k ≤ lo)
    (hlt : lo < hi) : rangesOrdered k (rangesAdd lo hi xs) = true := by
  induction xs generalizing k lo hi with
  | nil => simp [rangesAdd, rangesOrdered, hk, hlt]
  | cons r rest ih =>
    obtain ⟨a, b⟩ := r
    rw [rangesOrdered_cons] at h
    unfold rangesAdd
    split
    · rw [rangesOrdered_cons]
      exact ⟨h.1, h.2.1, ih h.2.2 (by omega) hlt⟩
    · split
      · rw [rangesOrdered_cons, rangesOrdered_cons]
        exact ⟨hk, hlt, by omega, h.2.1, h.2.2⟩
      · exact ih (rangesOrdered_mono (by omega) h.2.2) (by omega) (by omega)

/-- What `rangesRemove` holds: what was held outside the removed range. -/
theorem rangesMem_remove {xs : List (Nat × Nat)} {k lo hi : Nat} (h : rangesOrdered k xs = true) (x : Nat) :
    rangesMem (rangesRemove lo hi xs) x = true ↔ ¬(lo ≤ x ∧ x < hi) ∧ rangesMem xs x = true := by
  induction xs generalizing k with
  | nil => simp [rangesRemove]
  | cons r rest ih =>
    obtain ⟨a, b⟩ := r
    rw [rangesOrdered_cons] at h
    unfold rangesRemove
    split
    · rw [rangesMem_cons, rangesMem_cons, ih h.2.2]
      constructor
      · rintro (hx | hx)
        · exact ⟨by omega, .inl hx⟩
        · exact ⟨hx.1, .inr hx.2⟩
      · rintro ⟨hn, hx | hx⟩
        · exact .inl hx
        · exact .inr ⟨hn, hx⟩
    · split
      · rw [rangesMem_cons]
        constructor
        · intro hx
          refine ⟨?_, hx⟩
          rcases hx with hx | hx
          · omega
          · have := le_of_rangesMem h.2.2 hx
            omega
        · exact fun hx => hx.2
      · rw [rangesMem_append, rangesMem_append, ih h.2.2, rangesMem_cons]
        have hl : rangesMem (if a < lo then [(a, lo)] else []) x = true ↔ a ≤ x ∧ x < lo := by
          split <;> simp [rangesMem]; omega
        have hr : rangesMem (if hi < b then [(hi, b)] else []) x = true ↔ hi ≤ x ∧ x < b := by
          split <;> simp [rangesMem]; omega
        rw [hl, hr]
        constructor
        · rintro (hx | hx | hx)
          · exact ⟨by omega, .inl (by omega)⟩
          · exact ⟨by omega, .inl (by omega)⟩
          · exact ⟨hx.1, .inr hx.2⟩
        · rintro ⟨hn, hx | hx⟩
          · by_cases hxl : x < lo
            · exact .inl (by omega)
            · exact .inr (.inl (by omega))
          · exact .inr (.inr ⟨hn, hx⟩)

theorem rangesOrdered_remove {xs : List (Nat × Nat)} {k lo hi : Nat} (h : rangesOrdered k xs = true) (hlt : lo < hi) :
    rangesOrdered k (rangesRemove lo hi xs) = true := by
  induction xs generalizing k with
  | nil => rfl
  | cons r rest ih =>
    obtain ⟨a, b⟩ := r
    rw [rangesOrdered_cons] at h
    unfold rangesRemove
    split
    · rw [rangesOrdered_cons]
      exact ⟨h.1, h.2.1, ih h.2.2⟩
    · split
      · rw [rangesOrdered_cons]
        exact h
      · have ht := ih h.2.2
        by_cases h1 : a < lo <;> by_cases h2 : hi < b <;>
          simp only [h1, h2, if_true, if_false, List.cons_append, List.nil_append, rangesOrdered_cons]
        · exact ⟨h.1, trivial, by omega, trivial, ht⟩
        · exact ⟨h.1, trivial, rangesOrdered_mono (by omega) ht⟩
        · exact ⟨by omega, trivial, ht⟩
        · exact rangesOrdered_mono (by omega) ht

/-! ## Cells -/

theorem cellsOrdered_cons (k : Nat) (c : Host.Cell) (rest : List Host.Cell) :
    cellsOrdered k (c :: rest) = true ↔ k ≤ c.1 ∧ c.2 ≠ 0 ∧ cellsOrdered (c.1 + 1) rest = true := by
  simp [cellsOrdered, and_assoc]

theorem cellsOrdered_mono {j k : Nat} (hjk : j ≤ k) {xs : List Host.Cell} (h : cellsOrdered k xs = true) :
    cellsOrdered j xs = true := by
  cases xs with
  | nil => rfl
  | cons c rest =>
    rw [cellsOrdered_cons] at h ⊢
    exact ⟨le_trans hjk h.1, h.2⟩

/-- Nothing is listed below the start of a rising list. -/
theorem cellLookup_lt {xs : List Host.Cell} {k a : Nat} (h : cellsOrdered k xs = true) (ha : a < k) :
    cellLookup xs a = none := by
  induction xs generalizing k with
  | nil => rfl
  | cons c rest ih =>
    obtain ⟨i, v⟩ := c
    rw [cellsOrdered_cons] at h
    rw [cellLookup, if_neg (by omega : ¬ i = a)]
    exact ih h.2.2 (by omega)

theorem cellLookup_erase {xs : List Host.Cell} {k : Nat} (h : cellsOrdered k xs = true) (a x : Nat) :
    cellLookup (cellErase a xs) x = if x = a then none else cellLookup xs x := by
  induction xs generalizing k with
  | nil => simp [cellErase, cellLookup]
  | cons c rest ih =>
    obtain ⟨i, v⟩ := c
    rw [cellsOrdered_cons] at h
    unfold cellErase
    split
    · rename_i hi
      subst hi
      by_cases hx : x = i
      · subst hx
        simpa using cellLookup_lt h.2.2 (by omega)
      · simp [cellLookup, hx, Ne.symm hx]
    · split
      · by_cases hx : x = a
        · subst hx
          rw [if_pos rfl, cellLookup, if_neg (by omega : ¬ i = x)]
          exact cellLookup_lt h.2.2 (by omega)
        · simp [hx]
      · by_cases hx : x = i
        · subst hx
          rename_i h1 _
          simp [cellLookup, h1]
        · simp only [cellLookup, Ne.symm hx, if_false, ih h.2.2]

theorem cellLookup_insert {xs : List Host.Cell} (a : Nat) (b : Byte) (x : Nat) :
    cellLookup (cellInsert a b xs) x = if x = a then some b else cellLookup xs x := by
  induction xs with
  | nil => simp [cellInsert, cellLookup, eq_comm]
  | cons c rest ih =>
    obtain ⟨i, v⟩ := c
    unfold cellInsert
    by_cases hia : i = a
    · subst hia
      by_cases hx : i = x
      · simp [cellLookup, hx]
      · simp [cellLookup, hx, Ne.symm hx]
    · rw [if_neg hia]
      split
      · by_cases hx : a = x
        · simp [cellLookup, hx]
        · simp [cellLookup, hx, Ne.symm hx]
      · by_cases hx : i = x
        · subst hx
          simp [cellLookup, hia]
        · simp only [cellLookup, hx, if_false, ih]

theorem cellLookup_outside (lo hi : Nat) (xs : List Host.Cell) (x : Nat) :
    cellLookup (cellsOutside lo hi xs) x = if lo ≤ x ∧ x < hi then none else cellLookup xs x := by
  induction xs with
  | nil => simp [cellsOutside, cellLookup]
  | cons c rest ih =>
    obtain ⟨i, v⟩ := c
    unfold cellsOutside at ih ⊢
    rw [List.filter_cons]
    by_cases hi' : i < lo ∨ hi ≤ i
    · rw [if_pos (by simpa using hi')]
      by_cases hx : i = x
      · subst hx
        simp [cellLookup, show ¬(lo ≤ i ∧ i < hi) by omega]
      · simp only [cellLookup, hx, if_false, ih]
    · rw [if_neg (by simpa using hi'), ih]
      by_cases hx : i = x
      · subst hx
        simp [show lo ≤ i ∧ i < hi by omega]
      · simp only [cellLookup, hx, if_false]

theorem cellsOrdered_erase {xs : List Host.Cell} {k : Nat} (h : cellsOrdered k xs = true) (a : Nat) :
    cellsOrdered k (cellErase a xs) = true := by
  induction xs generalizing k with
  | nil => rfl
  | cons c rest ih =>
    obtain ⟨i, v⟩ := c
    have h' := (cellsOrdered_cons ..).mp h
    unfold cellErase
    split
    · exact cellsOrdered_mono (by have := h'.1; omega) h'.2.2
    · split
      · exact h
      · rw [cellsOrdered_cons]
        exact ⟨h'.1, h'.2.1, ih h'.2.2⟩

theorem cellsOrdered_insert {xs : List Host.Cell} {k a : Nat} {b : Byte} (h : cellsOrdered k xs = true) (hk : k ≤ a)
    (hb : b ≠ 0) : cellsOrdered k (cellInsert a b xs) = true := by
  induction xs generalizing k with
  | nil =>
    have hb' : ¬b = 0#8 := hb
    simp [cellInsert, cellsOrdered, hk, hb']
  | cons c rest ih =>
    obtain ⟨i, v⟩ := c
    have h' := (cellsOrdered_cons ..).mp h
    unfold cellInsert
    split
    · rename_i hi
      subst hi
      rw [cellsOrdered_cons]
      exact ⟨hk, hb, h'.2.2⟩
    · split
      · rw [cellsOrdered_cons, cellsOrdered_cons]
        exact ⟨hk, hb, by simpa using by omega, h'.2.1, h'.2.2⟩
      · rw [cellsOrdered_cons]
        exact ⟨h'.1, h'.2.1, ih h'.2.2 (by simpa using by omega)⟩

theorem cellsOrdered_outside {xs : List Host.Cell} {k : Nat} (h : cellsOrdered k xs = true) (lo hi : Nat) :
    cellsOrdered k (cellsOutside lo hi xs) = true := by
  induction xs generalizing k with
  | nil => rfl
  | cons c rest ih =>
    have h' := (cellsOrdered_cons ..).mp h
    unfold cellsOutside at ih ⊢
    rw [List.filter_cons]
    split
    · rw [cellsOrdered_cons]
      exact ⟨h'.1, h'.2.1, ih h'.2.2⟩
    · exact cellsOrdered_mono (by have := h'.1; omega) (ih h'.2.2)

theorem mem_cellErase {xs : List Host.Cell} {a : Nat} {c : Host.Cell} (h : c ∈ cellErase a xs) : c ∈ xs := by
  induction xs with
  | nil => simp [cellErase] at h
  | cons d rest ih =>
    obtain ⟨i, v⟩ := d
    unfold cellErase at h
    split at h
    · exact List.mem_cons_of_mem _ h
    · split at h
      · exact h
      · rcases List.mem_cons.mp h with rfl | h
        · exact List.mem_cons_self
        · exact List.mem_cons_of_mem _ (ih h)

theorem mem_cellInsert {xs : List Host.Cell} {a : Nat} {b : Byte} {c : Host.Cell} (h : c ∈ cellInsert a b xs) :
    c = (a, b) ∨ c ∈ xs := by
  induction xs with
  | nil => simpa [cellInsert] using h
  | cons d rest ih =>
    obtain ⟨i, v⟩ := d
    unfold cellInsert at h
    split at h
    · rcases List.mem_cons.mp h with rfl | h
      · exact .inl rfl
      · exact .inr (List.mem_cons_of_mem _ h)
    · split at h
      · rcases List.mem_cons.mp h with rfl | h
        · exact .inl rfl
        · exact .inr h
      · rcases List.mem_cons.mp h with rfl | h
        · exact .inr List.mem_cons_self
        · exact (ih h).imp_right (List.mem_cons_of_mem _)

/-! ## The canonical form -/

/-- The canonical form in three clauses. -/
theorem Memory.wf_iff (m : Memory) :
    m.wf = true ↔ rangesOrdered 0 m.known = true ∧ cellsOrdered 0 m.cells = true ∧
      ∀ c ∈ m.cells, rangesMem m.known c.1 = true := by
  simp [Memory.wf, and_assoc]

/-- A listed address is a specified one. -/
theorem Memory.known_of_lookup {m : Memory} (h : m.wf = true) {a : Nat} {b : Byte}
    (hl : cellLookup m.cells a = some b) : rangesMem m.known a = true := by
  have hall := (m.wf_iff.mp h).2.2
  suffices ∀ xs : List Host.Cell, cellLookup xs a = some b → ∃ c ∈ xs, c.1 = a by
    obtain ⟨c, hc, rfl⟩ := this _ hl
    exact hall c hc
  intro xs
  induction xs with
  | nil => simp [cellLookup]
  | cons d rest ih =>
    obtain ⟨i, v⟩ := d
    intro hx
    rw [cellLookup] at hx
    split at hx
    · exact ⟨(i, v), List.mem_cons_self, by assumption⟩
    · obtain ⟨c, hc, hca⟩ := ih hx
      exact ⟨c, List.mem_cons_of_mem _ hc, hca⟩

@[simp] theorem Memory.unspecified_wf : Memory.unspecified.wf = true := rfl

@[simp] theorem Memory.unspecified_get? (a : Nat) : Memory.unspecified.get? a = none := rfl

theorem Memory.put_wf {m : Memory} (h : m.wf = true) (a : Nat) (b : Byte) : (m.put a b).wf = true := by
  rw [wf_iff] at h ⊢
  refine ⟨rangesOrdered_add h.1 (Nat.zero_le _) (by omega), ?_, ?_⟩
  · unfold put
    dsimp only
    split
    · exact cellsOrdered_erase h.2.1 a
    · exact cellsOrdered_insert h.2.1 (Nat.zero_le _) (by assumption)
  · intro c hc
    unfold put at hc ⊢
    dsimp only at hc ⊢
    rw [rangesMem_add h.1 (by omega)]
    split at hc
    · exact .inr (h.2.2 c (mem_cellErase hc))
    · rcases mem_cellInsert hc with rfl | hc
      · exact .inl (by simp)
      · exact .inr (h.2.2 c hc)

theorem Memory.zeroFill_wf {m : Memory} (h : m.wf = true) (base size : Nat) : (m.zeroFill base size).wf = true := by
  unfold zeroFill
  split
  · exact h
  · rw [wf_iff] at h ⊢
    refine ⟨rangesOrdered_add h.1 (Nat.zero_le _) (by omega), cellsOrdered_outside h.2.1 _ _, ?_⟩
    intro c hc
    rw [rangesMem_add h.1 (by omega)]
    exact .inr (h.2.2 c (List.mem_of_mem_filter hc))

theorem Memory.forget_wf {m : Memory} (h : m.wf = true) (base size : Nat) : (m.forget base size).wf = true := by
  unfold forget
  split
  · exact h
  · rw [wf_iff] at h ⊢
    refine ⟨rangesOrdered_remove h.1 (by omega), cellsOrdered_outside h.2.1 _ _, ?_⟩
    intro c hc
    rw [rangesMem_remove h.1]
    have hc' := List.mem_filter.mp hc
    refine ⟨?_, h.2.2 c hc'.1⟩
    have := hc'.2
    simp at this
    omega

/-! ## Reads after writes -/

/-- A byte reads as written. -/
theorem Memory.get?_put_self {m : Memory} (h : m.wf = true) (a : Nat) (b : Byte) : (m.put a b).get? a = some b := by
  have hw := m.wf_iff.mp h
  have hk : rangesMem (rangesAdd a (a + 1) m.known) a = true := (rangesMem_add hw.1 (by omega) a).mpr (.inl (by omega))
  by_cases hb : b = 0
  · simp [put, get?, hb, cellLookup_erase hw.2.1, unlisted, hk]
  · have hb' : ¬b = 0#8 := hb
    simp [put, get?, hb', cellLookup_insert]

/-- A write leaves every other byte alone. -/
theorem Memory.get?_put_other {m : Memory} (h : m.wf = true) {a x : Nat} (hx : x ≠ a) (b : Byte) :
    (m.put a b).get? x = m.get? x := by
  have hw := m.wf_iff.mp h
  have hk : rangesMem (rangesAdd a (a + 1) m.known) x = rangesMem m.known x := by
    rw [Bool.eq_iff_iff, rangesMem_add hw.1 (by omega)]
    constructor
    · rintro (hx' | hx')
      · omega
      · exact hx'
    · exact .inr
  by_cases hb : b = 0
  · simp [put, get?, hb, cellLookup_erase hw.2.1, unlisted, hk, hx]
  · have hb' : ¬b = 0#8 := hb
    simp [put, get?, hb', cellLookup_insert, unlisted, hk, hx]

/-- What a read gives after a zero-fill (41_ring_buffer.md R84). -/
theorem Memory.get?_zeroFill {m : Memory} (h : m.wf = true) (base size x : Nat) :
    (m.zeroFill base size).get? x = if base ≤ x ∧ x < base + size then some 0 else m.get? x := by
  have hw := m.wf_iff.mp h
  unfold zeroFill
  split
  · rw [if_neg (by omega)]
  · rw [get?, cellLookup_outside]
    by_cases hx : base ≤ x ∧ x < base + size
    · simp [hx, unlisted, (rangesMem_add hw.1 (by omega) x).mpr (.inl hx)]
    · have hk : rangesMem (rangesAdd base (base + size) m.known) x = rangesMem m.known x := by
        rw [Bool.eq_iff_iff, rangesMem_add hw.1 (by omega)]
        tauto
      simp only [hx, if_false, unlisted, hk, get?]

/-- What a read gives after bytes become unspecified (20_memory.md R52). -/
theorem Memory.get?_forget {m : Memory} (h : m.wf = true) (base size x : Nat) :
    (m.forget base size).get? x = if base ≤ x ∧ x < base + size then none else m.get? x := by
  have hw := m.wf_iff.mp h
  unfold forget
  split
  · rw [if_neg (by omega)]
  · rw [get?, cellLookup_outside]
    by_cases hx : base ≤ x ∧ x < base + size
    · have : ¬ rangesMem (rangesRemove base (base + size) m.known) x = true := by
        rw [rangesMem_remove hw.1]
        exact fun hc => hc.1 hx
      simp [hx, unlisted, this]
    · have hk : rangesMem (rangesRemove base (base + size) m.known) x = rangesMem m.known x := by
        rw [Bool.eq_iff_iff, rangesMem_remove hw.1]
        tauto
      simp only [hx, if_false, unlisted, hk, get?]

end Sys2Proof.Machine
end

