-- ==== Sys2Proof/Laws/State.lean ====
section
/-! SUPPORT. For each named update of the state, what each field is afterwards: one lemma a field. -/

namespace Sys2Proof.Machine

/-! ## `withRing` -/

@[simp] theorem State.withRing_hw (s : State) (i : Fin 2) (r : Ring) : (s.withRing i r).hw = s.hw := rfl
@[simp] theorem State.withRing_tablesValid (s : State) (i : Fin 2) (r : Ring) : (s.withRing i r).tablesValid = s.tablesValid := rfl
@[simp] theorem State.withRing_inited (s : State) (i : Fin 2) (r : Ring) : (s.withRing i r).inited = s.inited := rfl
@[simp] theorem State.withRing_resetPending (s : State) (i : Fin 2) (r : Ring) : (s.withRing i r).resetPending = s.resetPending := rfl
@[simp] theorem State.withRing_fault (s : State) (i : Fin 2) (r : Ring) : (s.withRing i r).fault = s.fault := rfl
@[simp] theorem State.withRing_bypass (s : State) (i : Fin 2) (r : Ring) : (s.withRing i r).bypass = s.bypass := rfl
@[simp] theorem State.withRing_silence (s : State) (i : Fin 2) (r : Ring) : (s.withRing i r).silence = s.silence := rfl
@[simp] theorem State.withRing_loopSync (s : State) (i : Fin 2) (r : Ring) : (s.withRing i r).loopSync = s.loopSync := rfl
@[simp] theorem State.withRing_mode (s : State) (i : Fin 2) (r : Ring) : (s.withRing i r).mode = s.mode := rfl
@[simp] theorem State.withRing_prevMode (s : State) (i : Fin 2) (r : Ring) : (s.withRing i r).prevMode = s.prevMode := rfl
@[simp] theorem State.withRing_quality (s : State) (i : Fin 2) (r : Ring) : (s.withRing i r).quality = s.quality := rfl
@[simp] theorem State.withRing_sr (s : State) (i : Fin 2) (r : Ring) : (s.withRing i r).sr = s.sr := rfl
@[simp] theorem State.withRing_tblSr (s : State) (i : Fin 2) (r : Ring) : (s.withRing i r).tblSr = s.tblSr := rfl
@[simp] theorem State.withRing_large (s : State) (i : Fin 2) (r : Ring) : (s.withRing i r).large = s.large := rfl
@[simp] theorem State.withRing_small (s : State) (i : Fin 2) (r : Ring) : (s.withRing i r).small = s.small := rfl
@[simp] theorem State.withRing_wsSpace (s : State) (i : Fin 2) (r : Ring) : (s.withRing i r).wsSpace = s.wsSpace := rfl
@[simp] theorem State.withRing_wsBase (s : State) (i : Fin 2) (r : Ring) : (s.withRing i r).wsBase = s.wsBase := rfl
@[simp] theorem State.withRing_wsSize (s : State) (i : Fin 2) (r : Ring) : (s.withRing i r).wsSize = s.wsSize := rfl
@[simp] theorem State.withRing_cmdcnt (s : State) (i : Fin 2) (r : Ring) : (s.withRing i r).cmdcnt = s.cmdcnt := rfl
@[simp] theorem State.withRing_faultCause (s : State) (i : Fin 2) (r : Ring) : (s.withRing i r).faultCause = s.faultCause := rfl
@[simp] theorem State.withRing_faultInfo (s : State) (i : Fin 2) (r : Ring) : (s.withRing i r).faultInfo = s.faultInfo := rfl
@[simp] theorem State.withRing_faultCmdLo (s : State) (i : Fin 2) (r : Ring) : (s.withRing i r).faultCmdLo = s.faultCmdLo := rfl
@[simp] theorem State.withRing_faultCmdHi (s : State) (i : Fin 2) (r : Ring) : (s.withRing i r).faultCmdHi = s.faultCmdHi := rfl
@[simp] theorem State.withRing_p (s : State) (i : Fin 2) (r : Ring) : (s.withRing i r).p = s.p := rfl
@[simp] theorem State.withRing_drv (s : State) (i : Fin 2) (r : Ring) : (s.withRing i r).drv = s.drv := rfl
@[simp] theorem State.withRing_rings (s : State) (i : Fin 2) (r : Ring) : (s.withRing i r).rings = s.rings.set i r := rfl
@[simp] theorem State.withRing_svfs (s : State) (i : Fin 2) (r : Ring) : (s.withRing i r).svfs = s.svfs := rfl
@[simp] theorem State.withRing_grains (s : State) (i : Fin 2) (r : Ring) : (s.withRing i r).grains = s.grains := rfl
@[simp] theorem State.withRing_search (s : State) (i : Fin 2) (r : Ring) : (s.withRing i r).search = s.search := rfl
@[simp] theorem State.withRing_kernels (s : State) (i : Fin 2) (r : Ring) : (s.withRing i r).kernels = s.kernels := rfl
@[simp] theorem State.withRing_freezeLp (s : State) (i : Fin 2) (r : Ring) : (s.withRing i r).freezeLp = s.freezeLp := rfl
@[simp] theorem State.withRing_dwPrev (s : State) (i : Fin 2) (r : Ring) : (s.withRing i r).dwPrev = s.dwPrev := rfl
@[simp] theorem State.withRing_upPrev (s : State) (i : Fin 2) (r : Ring) : (s.withRing i r).upPrev = s.upPrev := rfl
@[simp] theorem State.withRing_fbbuf (s : State) (i : Fin 2) (r : Ring) : (s.withRing i r).fbbuf = s.fbbuf := rfl
@[simp] theorem State.withRing_inbuf (s : State) (i : Fin 2) (r : Ring) : (s.withRing i r).inbuf = s.inbuf := rfl
@[simp] theorem State.withRing_outbuf (s : State) (i : Fin 2) (r : Ring) : (s.withRing i r).outbuf = s.outbuf := rfl
@[simp] theorem State.withRing_inputs (s : State) (i : Fin 2) (r : Ring) : (s.withRing i r).inputs = s.inputs := rfl
@[simp] theorem State.withRing_resp (s : State) (i : Fin 2) (r : Ring) : (s.withRing i r).resp = s.resp := rfl
@[simp] theorem State.withRing_draws (s : State) (i : Fin 2) (r : Ring) : (s.withRing i r).draws = s.draws := rfl

/-! ## `withSvf` -/

@[simp] theorem State.withSvf_hw (s : State) (i : Fin 8) (v : Svf) : (s.withSvf i v).hw = s.hw := rfl
@[simp] theorem State.withSvf_tablesValid (s : State) (i : Fin 8) (v : Svf) : (s.withSvf i v).tablesValid = s.tablesValid := rfl
@[simp] theorem State.withSvf_inited (s : State) (i : Fin 8) (v : Svf) : (s.withSvf i v).inited = s.inited := rfl
@[simp] theorem State.withSvf_resetPending (s : State) (i : Fin 8) (v : Svf) : (s.withSvf i v).resetPending = s.resetPending := rfl
@[simp] theorem State.withSvf_fault (s : State) (i : Fin 8) (v : Svf) : (s.withSvf i v).fault = s.fault := rfl
@[simp] theorem State.withSvf_bypass (s : State) (i : Fin 8) (v : Svf) : (s.withSvf i v).bypass = s.bypass := rfl
@[simp] theorem State.withSvf_silence (s : State) (i : Fin 8) (v : Svf) : (s.withSvf i v).silence = s.silence := rfl
@[simp] theorem State.withSvf_loopSync (s : State) (i : Fin 8) (v : Svf) : (s.withSvf i v).loopSync = s.loopSync := rfl
@[simp] theorem State.withSvf_mode (s : State) (i : Fin 8) (v : Svf) : (s.withSvf i v).mode = s.mode := rfl
@[simp] theorem State.withSvf_prevMode (s : State) (i : Fin 8) (v : Svf) : (s.withSvf i v).prevMode = s.prevMode := rfl
@[simp] theorem State.withSvf_quality (s : State) (i : Fin 8) (v : Svf) : (s.withSvf i v).quality = s.quality := rfl
@[simp] theorem State.withSvf_sr (s : State) (i : Fin 8) (v : Svf) : (s.withSvf i v).sr = s.sr := rfl
@[simp] theorem State.withSvf_tblSr (s : State) (i : Fin 8) (v : Svf) : (s.withSvf i v).tblSr = s.tblSr := rfl
@[simp] theorem State.withSvf_large (s : State) (i : Fin 8) (v : Svf) : (s.withSvf i v).large = s.large := rfl
@[simp] theorem State.withSvf_small (s : State) (i : Fin 8) (v : Svf) : (s.withSvf i v).small = s.small := rfl
@[simp] theorem State.withSvf_wsSpace (s : State) (i : Fin 8) (v : Svf) : (s.withSvf i v).wsSpace = s.wsSpace := rfl
@[simp] theorem State.withSvf_wsBase (s : State) (i : Fin 8) (v : Svf) : (s.withSvf i v).wsBase = s.wsBase := rfl
@[simp] theorem State.withSvf_wsSize (s : State) (i : Fin 8) (v : Svf) : (s.withSvf i v).wsSize = s.wsSize := rfl
@[simp] theorem State.withSvf_cmdcnt (s : State) (i : Fin 8) (v : Svf) : (s.withSvf i v).cmdcnt = s.cmdcnt := rfl
@[simp] theorem State.withSvf_faultCause (s : State) (i : Fin 8) (v : Svf) : (s.withSvf i v).faultCause = s.faultCause := rfl
@[simp] theorem State.withSvf_faultInfo (s : State) (i : Fin 8) (v : Svf) : (s.withSvf i v).faultInfo = s.faultInfo := rfl
@[simp] theorem State.withSvf_faultCmdLo (s : State) (i : Fin 8) (v : Svf) : (s.withSvf i v).faultCmdLo = s.faultCmdLo := rfl
@[simp] theorem State.withSvf_faultCmdHi (s : State) (i : Fin 8) (v : Svf) : (s.withSvf i v).faultCmdHi = s.faultCmdHi := rfl
@[simp] theorem State.withSvf_p (s : State) (i : Fin 8) (v : Svf) : (s.withSvf i v).p = s.p := rfl
@[simp] theorem State.withSvf_drv (s : State) (i : Fin 8) (v : Svf) : (s.withSvf i v).drv = s.drv := rfl
@[simp] theorem State.withSvf_rings (s : State) (i : Fin 8) (v : Svf) : (s.withSvf i v).rings = s.rings := rfl
@[simp] theorem State.withSvf_svfs (s : State) (i : Fin 8) (v : Svf) : (s.withSvf i v).svfs = s.svfs.set i v := rfl
@[simp] theorem State.withSvf_grains (s : State) (i : Fin 8) (v : Svf) : (s.withSvf i v).grains = s.grains := rfl
@[simp] theorem State.withSvf_search (s : State) (i : Fin 8) (v : Svf) : (s.withSvf i v).search = s.search := rfl
@[simp] theorem State.withSvf_kernels (s : State) (i : Fin 8) (v : Svf) : (s.withSvf i v).kernels = s.kernels := rfl
@[simp] theorem State.withSvf_freezeLp (s : State) (i : Fin 8) (v : Svf) : (s.withSvf i v).freezeLp = s.freezeLp := rfl
@[simp] theorem State.withSvf_dwPrev (s : State) (i : Fin 8) (v : Svf) : (s.withSvf i v).dwPrev = s.dwPrev := rfl
@[simp] theorem State.withSvf_upPrev (s : State) (i : Fin 8) (v : Svf) : (s.withSvf i v).upPrev = s.upPrev := rfl
@[simp] theorem State.withSvf_fbbuf (s : State) (i : Fin 8) (v : Svf) : (s.withSvf i v).fbbuf = s.fbbuf := rfl
@[simp] theorem State.withSvf_inbuf (s : State) (i : Fin 8) (v : Svf) : (s.withSvf i v).inbuf = s.inbuf := rfl
@[simp] theorem State.withSvf_outbuf (s : State) (i : Fin 8) (v : Svf) : (s.withSvf i v).outbuf = s.outbuf := rfl
@[simp] theorem State.withSvf_inputs (s : State) (i : Fin 8) (v : Svf) : (s.withSvf i v).inputs = s.inputs := rfl
@[simp] theorem State.withSvf_resp (s : State) (i : Fin 8) (v : Svf) : (s.withSvf i v).resp = s.resp := rfl
@[simp] theorem State.withSvf_draws (s : State) (i : Fin 8) (v : Svf) : (s.withSvf i v).draws = s.draws := rfl

/-! ## `withArena` -/

@[simp] theorem State.withArena_hw (s : State) (sp : Space) (a : Arena) : (s.withArena sp a).hw = s.hw := by cases sp <;> rfl
@[simp] theorem State.withArena_tablesValid (s : State) (sp : Space) (a : Arena) : (s.withArena sp a).tablesValid = s.tablesValid := by cases sp <;> rfl
@[simp] theorem State.withArena_inited (s : State) (sp : Space) (a : Arena) : (s.withArena sp a).inited = s.inited := by cases sp <;> rfl
@[simp] theorem State.withArena_resetPending (s : State) (sp : Space) (a : Arena) : (s.withArena sp a).resetPending = s.resetPending := by cases sp <;> rfl
@[simp] theorem State.withArena_fault (s : State) (sp : Space) (a : Arena) : (s.withArena sp a).fault = s.fault := by cases sp <;> rfl
@[simp] theorem State.withArena_bypass (s : State) (sp : Space) (a : Arena) : (s.withArena sp a).bypass = s.bypass := by cases sp <;> rfl
@[simp] theorem State.withArena_silence (s : State) (sp : Space) (a : Arena) : (s.withArena sp a).silence = s.silence := by cases sp <;> rfl
@[simp] theorem State.withArena_loopSync (s : State) (sp : Space) (a : Arena) : (s.withArena sp a).loopSync = s.loopSync := by cases sp <;> rfl
@[simp] theorem State.withArena_mode (s : State) (sp : Space) (a : Arena) : (s.withArena sp a).mode = s.mode := by cases sp <;> rfl
@[simp] theorem State.withArena_prevMode (s : State) (sp : Space) (a : Arena) : (s.withArena sp a).prevMode = s.prevMode := by cases sp <;> rfl
@[simp] theorem State.withArena_quality (s : State) (sp : Space) (a : Arena) : (s.withArena sp a).quality = s.quality := by cases sp <;> rfl
@[simp] theorem State.withArena_sr (s : State) (sp : Space) (a : Arena) : (s.withArena sp a).sr = s.sr := by cases sp <;> rfl
@[simp] theorem State.withArena_tblSr (s : State) (sp : Space) (a : Arena) : (s.withArena sp a).tblSr = s.tblSr := by cases sp <;> rfl
@[simp] theorem State.withArena_wsSpace (s : State) (sp : Space) (a : Arena) : (s.withArena sp a).wsSpace = s.wsSpace := by cases sp <;> rfl
@[simp] theorem State.withArena_wsBase (s : State) (sp : Space) (a : Arena) : (s.withArena sp a).wsBase = s.wsBase := by cases sp <;> rfl
@[simp] theorem State.withArena_wsSize (s : State) (sp : Space) (a : Arena) : (s.withArena sp a).wsSize = s.wsSize := by cases sp <;> rfl
@[simp] theorem State.withArena_cmdcnt (s : State) (sp : Space) (a : Arena) : (s.withArena sp a).cmdcnt = s.cmdcnt := by cases sp <;> rfl
@[simp] theorem State.withArena_faultCause (s : State) (sp : Space) (a : Arena) : (s.withArena sp a).faultCause = s.faultCause := by cases sp <;> rfl
@[simp] theorem State.withArena_faultInfo (s : State) (sp : Space) (a : Arena) : (s.withArena sp a).faultInfo = s.faultInfo := by cases sp <;> rfl
@[simp] theorem State.withArena_faultCmdLo (s : State) (sp : Space) (a : Arena) : (s.withArena sp a).faultCmdLo = s.faultCmdLo := by cases sp <;> rfl
@[simp] theorem State.withArena_faultCmdHi (s : State) (sp : Space) (a : Arena) : (s.withArena sp a).faultCmdHi = s.faultCmdHi := by cases sp <;> rfl
@[simp] theorem State.withArena_p (s : State) (sp : Space) (a : Arena) : (s.withArena sp a).p = s.p := by cases sp <;> rfl
@[simp] theorem State.withArena_drv (s : State) (sp : Space) (a : Arena) : (s.withArena sp a).drv = s.drv := by cases sp <;> rfl
@[simp] theorem State.withArena_rings (s : State) (sp : Space) (a : Arena) : (s.withArena sp a).rings = s.rings := by cases sp <;> rfl
@[simp] theorem State.withArena_svfs (s : State) (sp : Space) (a : Arena) : (s.withArena sp a).svfs = s.svfs := by cases sp <;> rfl
@[simp] theorem State.withArena_grains (s : State) (sp : Space) (a : Arena) : (s.withArena sp a).grains = s.grains := by cases sp <;> rfl
@[simp] theorem State.withArena_search (s : State) (sp : Space) (a : Arena) : (s.withArena sp a).search = s.search := by cases sp <;> rfl
@[simp] theorem State.withArena_kernels (s : State) (sp : Space) (a : Arena) : (s.withArena sp a).kernels = s.kernels := by cases sp <;> rfl
@[simp] theorem State.withArena_freezeLp (s : State) (sp : Space) (a : Arena) : (s.withArena sp a).freezeLp = s.freezeLp := by cases sp <;> rfl
@[simp] theorem State.withArena_dwPrev (s : State) (sp : Space) (a : Arena) : (s.withArena sp a).dwPrev = s.dwPrev := by cases sp <;> rfl
@[simp] theorem State.withArena_upPrev (s : State) (sp : Space) (a : Arena) : (s.withArena sp a).upPrev = s.upPrev := by cases sp <;> rfl
@[simp] theorem State.withArena_fbbuf (s : State) (sp : Space) (a : Arena) : (s.withArena sp a).fbbuf = s.fbbuf := by cases sp <;> rfl
@[simp] theorem State.withArena_inbuf (s : State) (sp : Space) (a : Arena) : (s.withArena sp a).inbuf = s.inbuf := by cases sp <;> rfl
@[simp] theorem State.withArena_outbuf (s : State) (sp : Space) (a : Arena) : (s.withArena sp a).outbuf = s.outbuf := by cases sp <;> rfl
@[simp] theorem State.withArena_inputs (s : State) (sp : Space) (a : Arena) : (s.withArena sp a).inputs = s.inputs := by cases sp <;> rfl
@[simp] theorem State.withArena_resp (s : State) (sp : Space) (a : Arena) : (s.withArena sp a).resp = s.resp := by cases sp <;> rfl
@[simp] theorem State.withArena_draws (s : State) (sp : Space) (a : Arena) : (s.withArena sp a).draws = s.draws := by cases sp <;> rfl

/-! ## `mapMem` -/

@[simp] theorem State.mapMem_hw (s : State) (sp : Space) (f : Memory → Memory) : (s.mapMem sp f).hw = s.hw := by cases sp <;> rfl
@[simp] theorem State.mapMem_tablesValid (s : State) (sp : Space) (f : Memory → Memory) : (s.mapMem sp f).tablesValid = s.tablesValid := by cases sp <;> rfl
@[simp] theorem State.mapMem_inited (s : State) (sp : Space) (f : Memory → Memory) : (s.mapMem sp f).inited = s.inited := by cases sp <;> rfl
@[simp] theorem State.mapMem_resetPending (s : State) (sp : Space) (f : Memory → Memory) : (s.mapMem sp f).resetPending = s.resetPending := by cases sp <;> rfl
@[simp] theorem State.mapMem_fault (s : State) (sp : Space) (f : Memory → Memory) : (s.mapMem sp f).fault = s.fault := by cases sp <;> rfl
@[simp] theorem State.mapMem_bypass (s : State) (sp : Space) (f : Memory → Memory) : (s.mapMem sp f).bypass = s.bypass := by cases sp <;> rfl
@[simp] theorem State.mapMem_silence (s : State) (sp : Space) (f : Memory → Memory) : (s.mapMem sp f).silence = s.silence := by cases sp <;> rfl
@[simp] theorem State.mapMem_loopSync (s : State) (sp : Space) (f : Memory → Memory) : (s.mapMem sp f).loopSync = s.loopSync := by cases sp <;> rfl
@[simp] theorem State.mapMem_mode (s : State) (sp : Space) (f : Memory → Memory) : (s.mapMem sp f).mode = s.mode := by cases sp <;> rfl
@[simp] theorem State.mapMem_prevMode (s : State) (sp : Space) (f : Memory → Memory) : (s.mapMem sp f).prevMode = s.prevMode := by cases sp <;> rfl
@[simp] theorem State.mapMem_quality (s : State) (sp : Space) (f : Memory → Memory) : (s.mapMem sp f).quality = s.quality := by cases sp <;> rfl
@[simp] theorem State.mapMem_sr (s : State) (sp : Space) (f : Memory → Memory) : (s.mapMem sp f).sr = s.sr := by cases sp <;> rfl
@[simp] theorem State.mapMem_tblSr (s : State) (sp : Space) (f : Memory → Memory) : (s.mapMem sp f).tblSr = s.tblSr := by cases sp <;> rfl
@[simp] theorem State.mapMem_wsSpace (s : State) (sp : Space) (f : Memory → Memory) : (s.mapMem sp f).wsSpace = s.wsSpace := by cases sp <;> rfl
@[simp] theorem State.mapMem_wsBase (s : State) (sp : Space) (f : Memory → Memory) : (s.mapMem sp f).wsBase = s.wsBase := by cases sp <;> rfl
@[simp] theorem State.mapMem_wsSize (s : State) (sp : Space) (f : Memory → Memory) : (s.mapMem sp f).wsSize = s.wsSize := by cases sp <;> rfl
@[simp] theorem State.mapMem_cmdcnt (s : State) (sp : Space) (f : Memory → Memory) : (s.mapMem sp f).cmdcnt = s.cmdcnt := by cases sp <;> rfl
@[simp] theorem State.mapMem_faultCause (s : State) (sp : Space) (f : Memory → Memory) : (s.mapMem sp f).faultCause = s.faultCause := by cases sp <;> rfl
@[simp] theorem State.mapMem_faultInfo (s : State) (sp : Space) (f : Memory → Memory) : (s.mapMem sp f).faultInfo = s.faultInfo := by cases sp <;> rfl
@[simp] theorem State.mapMem_faultCmdLo (s : State) (sp : Space) (f : Memory → Memory) : (s.mapMem sp f).faultCmdLo = s.faultCmdLo := by cases sp <;> rfl
@[simp] theorem State.mapMem_faultCmdHi (s : State) (sp : Space) (f : Memory → Memory) : (s.mapMem sp f).faultCmdHi = s.faultCmdHi := by cases sp <;> rfl
@[simp] theorem State.mapMem_p (s : State) (sp : Space) (f : Memory → Memory) : (s.mapMem sp f).p = s.p := by cases sp <;> rfl
@[simp] theorem State.mapMem_drv (s : State) (sp : Space) (f : Memory → Memory) : (s.mapMem sp f).drv = s.drv := by cases sp <;> rfl
@[simp] theorem State.mapMem_rings (s : State) (sp : Space) (f : Memory → Memory) : (s.mapMem sp f).rings = s.rings := by cases sp <;> rfl
@[simp] theorem State.mapMem_svfs (s : State) (sp : Space) (f : Memory → Memory) : (s.mapMem sp f).svfs = s.svfs := by cases sp <;> rfl
@[simp] theorem State.mapMem_grains (s : State) (sp : Space) (f : Memory → Memory) : (s.mapMem sp f).grains = s.grains := by cases sp <;> rfl
@[simp] theorem State.mapMem_search (s : State) (sp : Space) (f : Memory → Memory) : (s.mapMem sp f).search = s.search := by cases sp <;> rfl
@[simp] theorem State.mapMem_kernels (s : State) (sp : Space) (f : Memory → Memory) : (s.mapMem sp f).kernels = s.kernels := by cases sp <;> rfl
@[simp] theorem State.mapMem_freezeLp (s : State) (sp : Space) (f : Memory → Memory) : (s.mapMem sp f).freezeLp = s.freezeLp := by cases sp <;> rfl
@[simp] theorem State.mapMem_dwPrev (s : State) (sp : Space) (f : Memory → Memory) : (s.mapMem sp f).dwPrev = s.dwPrev := by cases sp <;> rfl
@[simp] theorem State.mapMem_upPrev (s : State) (sp : Space) (f : Memory → Memory) : (s.mapMem sp f).upPrev = s.upPrev := by cases sp <;> rfl
@[simp] theorem State.mapMem_fbbuf (s : State) (sp : Space) (f : Memory → Memory) : (s.mapMem sp f).fbbuf = s.fbbuf := by cases sp <;> rfl
@[simp] theorem State.mapMem_inbuf (s : State) (sp : Space) (f : Memory → Memory) : (s.mapMem sp f).inbuf = s.inbuf := by cases sp <;> rfl
@[simp] theorem State.mapMem_outbuf (s : State) (sp : Space) (f : Memory → Memory) : (s.mapMem sp f).outbuf = s.outbuf := by cases sp <;> rfl
@[simp] theorem State.mapMem_inputs (s : State) (sp : Space) (f : Memory → Memory) : (s.mapMem sp f).inputs = s.inputs := by cases sp <;> rfl
@[simp] theorem State.mapMem_resp (s : State) (sp : Space) (f : Memory → Memory) : (s.mapMem sp f).resp = s.resp := by cases sp <;> rfl
@[simp] theorem State.mapMem_draws (s : State) (sp : Space) (f : Memory → Memory) : (s.mapMem sp f).draws = s.draws := by cases sp <;> rfl

/-! ## `faulted` -/

@[simp] theorem State.faulted_hw (s : State) (c : Cause) (info : Nat) (w : Cmd) : (s.faulted c info w).hw = s.hw := rfl
@[simp] theorem State.faulted_tablesValid (s : State) (c : Cause) (info : Nat) (w : Cmd) : (s.faulted c info w).tablesValid = s.tablesValid := rfl
@[simp] theorem State.faulted_inited (s : State) (c : Cause) (info : Nat) (w : Cmd) : (s.faulted c info w).inited = s.inited := rfl
@[simp] theorem State.faulted_resetPending (s : State) (c : Cause) (info : Nat) (w : Cmd) : (s.faulted c info w).resetPending = s.resetPending := rfl
@[simp] theorem State.faulted_fault (s : State) (c : Cause) (info : Nat) (w : Cmd) : (s.faulted c info w).fault = true := rfl
@[simp] theorem State.faulted_bypass (s : State) (c : Cause) (info : Nat) (w : Cmd) : (s.faulted c info w).bypass = s.bypass := rfl
@[simp] theorem State.faulted_silence (s : State) (c : Cause) (info : Nat) (w : Cmd) : (s.faulted c info w).silence = s.silence := rfl
@[simp] theorem State.faulted_loopSync (s : State) (c : Cause) (info : Nat) (w : Cmd) : (s.faulted c info w).loopSync = s.loopSync := rfl
@[simp] theorem State.faulted_mode (s : State) (c : Cause) (info : Nat) (w : Cmd) : (s.faulted c info w).mode = s.mode := rfl
@[simp] theorem State.faulted_prevMode (s : State) (c : Cause) (info : Nat) (w : Cmd) : (s.faulted c info w).prevMode = s.prevMode := rfl
@[simp] theorem State.faulted_quality (s : State) (c : Cause) (info : Nat) (w : Cmd) : (s.faulted c info w).quality = s.quality := rfl
@[simp] theorem State.faulted_sr (s : State) (c : Cause) (info : Nat) (w : Cmd) : (s.faulted c info w).sr = s.sr := rfl
@[simp] theorem State.faulted_tblSr (s : State) (c : Cause) (info : Nat) (w : Cmd) : (s.faulted c info w).tblSr = s.tblSr := rfl
@[simp] theorem State.faulted_large (s : State) (c : Cause) (info : Nat) (w : Cmd) : (s.faulted c info w).large = s.large := rfl
@[simp] theorem State.faulted_small (s : State) (c : Cause) (info : Nat) (w : Cmd) : (s.faulted c info w).small = s.small := rfl
@[simp] theorem State.faulted_wsSpace (s : State) (c : Cause) (info : Nat) (w : Cmd) : (s.faulted c info w).wsSpace = s.wsSpace := rfl
@[simp] theorem State.faulted_wsBase (s : State) (c : Cause) (info : Nat) (w : Cmd) : (s.faulted c info w).wsBase = s.wsBase := rfl
@[simp] theorem State.faulted_wsSize (s : State) (c : Cause) (info : Nat) (w : Cmd) : (s.faulted c info w).wsSize = s.wsSize := rfl
@[simp] theorem State.faulted_cmdcnt (s : State) (c : Cause) (info : Nat) (w : Cmd) : (s.faulted c info w).cmdcnt = s.cmdcnt := rfl
@[simp] theorem State.faulted_faultCause (s : State) (c : Cause) (info : Nat) (w : Cmd) : (s.faulted c info w).faultCause = causeCode c := rfl
@[simp] theorem State.faulted_faultInfo (s : State) (c : Cause) (info : Nat) (w : Cmd) : (s.faulted c info w).faultInfo = BitVec.ofNat 32 info := rfl
@[simp] theorem State.faulted_faultCmdLo (s : State) (c : Cause) (info : Nat) (w : Cmd) : (s.faulted c info w).faultCmdLo = w.extractLsb' 0 32 := rfl
@[simp] theorem State.faulted_faultCmdHi (s : State) (c : Cause) (info : Nat) (w : Cmd) : (s.faulted c info w).faultCmdHi = w.extractLsb' 32 32 := rfl
@[simp] theorem State.faulted_p (s : State) (c : Cause) (info : Nat) (w : Cmd) : (s.faulted c info w).p = s.p := rfl
@[simp] theorem State.faulted_drv (s : State) (c : Cause) (info : Nat) (w : Cmd) : (s.faulted c info w).drv = s.drv := rfl
@[simp] theorem State.faulted_rings (s : State) (c : Cause) (info : Nat) (w : Cmd) : (s.faulted c info w).rings = s.rings := rfl
@[simp] theorem State.faulted_svfs (s : State) (c : Cause) (info : Nat) (w : Cmd) : (s.faulted c info w).svfs = s.svfs := rfl
@[simp] theorem State.faulted_grains (s : State) (c : Cause) (info : Nat) (w : Cmd) : (s.faulted c info w).grains = s.grains := rfl
@[simp] theorem State.faulted_search (s : State) (c : Cause) (info : Nat) (w : Cmd) : (s.faulted c info w).search = s.search := rfl
@[simp] theorem State.faulted_kernels (s : State) (c : Cause) (info : Nat) (w : Cmd) : (s.faulted c info w).kernels = s.kernels := rfl
@[simp] theorem State.faulted_freezeLp (s : State) (c : Cause) (info : Nat) (w : Cmd) : (s.faulted c info w).freezeLp = s.freezeLp := rfl
@[simp] theorem State.faulted_dwPrev (s : State) (c : Cause) (info : Nat) (w : Cmd) : (s.faulted c info w).dwPrev = s.dwPrev := rfl
@[simp] theorem State.faulted_upPrev (s : State) (c : Cause) (info : Nat) (w : Cmd) : (s.faulted c info w).upPrev = s.upPrev := rfl
@[simp] theorem State.faulted_fbbuf (s : State) (c : Cause) (info : Nat) (w : Cmd) : (s.faulted c info w).fbbuf = s.fbbuf := rfl
@[simp] theorem State.faulted_inbuf (s : State) (c : Cause) (info : Nat) (w : Cmd) : (s.faulted c info w).inbuf = s.inbuf := rfl
@[simp] theorem State.faulted_outbuf (s : State) (c : Cause) (info : Nat) (w : Cmd) : (s.faulted c info w).outbuf = s.outbuf := rfl
@[simp] theorem State.faulted_inputs (s : State) (c : Cause) (info : Nat) (w : Cmd) : (s.faulted c info w).inputs = s.inputs := rfl
@[simp] theorem State.faulted_resp (s : State) (c : Cause) (info : Nat) (w : Cmd) : (s.faulted c info w).resp = none := rfl
@[simp] theorem State.faulted_draws (s : State) (c : Cause) (info : Nat) (w : Cmd) : (s.faulted c info w).draws = s.draws := rfl

/-! ## `present` -/

@[simp] theorem State.present_hw (s : State) (w : Cmd) : (s.present w).hw = s.hw := rfl
@[simp] theorem State.present_tablesValid (s : State) (w : Cmd) : (s.present w).tablesValid = s.tablesValid := rfl
@[simp] theorem State.present_inited (s : State) (w : Cmd) : (s.present w).inited = s.inited := rfl
@[simp] theorem State.present_resetPending (s : State) (w : Cmd) : (s.present w).resetPending = s.resetPending := rfl
@[simp] theorem State.present_fault (s : State) (w : Cmd) : (s.present w).fault = s.fault := rfl
@[simp] theorem State.present_bypass (s : State) (w : Cmd) : (s.present w).bypass = s.bypass := rfl
@[simp] theorem State.present_silence (s : State) (w : Cmd) : (s.present w).silence = s.silence := rfl
@[simp] theorem State.present_loopSync (s : State) (w : Cmd) : (s.present w).loopSync = s.loopSync := rfl
@[simp] theorem State.present_mode (s : State) (w : Cmd) : (s.present w).mode = s.mode := rfl
@[simp] theorem State.present_prevMode (s : State) (w : Cmd) : (s.present w).prevMode = s.prevMode := rfl
@[simp] theorem State.present_quality (s : State) (w : Cmd) : (s.present w).quality = s.quality := rfl
@[simp] theorem State.present_sr (s : State) (w : Cmd) : (s.present w).sr = s.sr := rfl
@[simp] theorem State.present_tblSr (s : State) (w : Cmd) : (s.present w).tblSr = s.tblSr := rfl
@[simp] theorem State.present_large (s : State) (w : Cmd) : (s.present w).large = s.large := rfl
@[simp] theorem State.present_small (s : State) (w : Cmd) : (s.present w).small = s.small := rfl
@[simp] theorem State.present_wsSpace (s : State) (w : Cmd) : (s.present w).wsSpace = s.wsSpace := rfl
@[simp] theorem State.present_wsBase (s : State) (w : Cmd) : (s.present w).wsBase = s.wsBase := rfl
@[simp] theorem State.present_wsSize (s : State) (w : Cmd) : (s.present w).wsSize = s.wsSize := rfl
@[simp] theorem State.present_cmdcnt (s : State) (w : Cmd) : (s.present w).cmdcnt = s.cmdcnt := rfl
@[simp] theorem State.present_faultCause (s : State) (w : Cmd) : (s.present w).faultCause = s.faultCause := rfl
@[simp] theorem State.present_faultInfo (s : State) (w : Cmd) : (s.present w).faultInfo = s.faultInfo := rfl
@[simp] theorem State.present_faultCmdLo (s : State) (w : Cmd) : (s.present w).faultCmdLo = s.faultCmdLo := rfl
@[simp] theorem State.present_faultCmdHi (s : State) (w : Cmd) : (s.present w).faultCmdHi = s.faultCmdHi := rfl
@[simp] theorem State.present_p (s : State) (w : Cmd) : (s.present w).p = s.p := rfl
@[simp] theorem State.present_drv (s : State) (w : Cmd) : (s.present w).drv = s.drv := rfl
@[simp] theorem State.present_rings (s : State) (w : Cmd) : (s.present w).rings = s.rings := rfl
@[simp] theorem State.present_svfs (s : State) (w : Cmd) : (s.present w).svfs = s.svfs := rfl
@[simp] theorem State.present_grains (s : State) (w : Cmd) : (s.present w).grains = s.grains := rfl
@[simp] theorem State.present_search (s : State) (w : Cmd) : (s.present w).search = s.search := rfl
@[simp] theorem State.present_kernels (s : State) (w : Cmd) : (s.present w).kernels = s.kernels := rfl
@[simp] theorem State.present_freezeLp (s : State) (w : Cmd) : (s.present w).freezeLp = s.freezeLp := rfl
@[simp] theorem State.present_dwPrev (s : State) (w : Cmd) : (s.present w).dwPrev = s.dwPrev := rfl
@[simp] theorem State.present_upPrev (s : State) (w : Cmd) : (s.present w).upPrev = s.upPrev := rfl
@[simp] theorem State.present_fbbuf (s : State) (w : Cmd) : (s.present w).fbbuf = s.fbbuf := rfl
@[simp] theorem State.present_inbuf (s : State) (w : Cmd) : (s.present w).inbuf = s.inbuf := rfl
@[simp] theorem State.present_outbuf (s : State) (w : Cmd) : (s.present w).outbuf = s.outbuf := rfl
@[simp] theorem State.present_inputs (s : State) (w : Cmd) : (s.present w).inputs = .command w :: s.inputs := rfl
@[simp] theorem State.present_resp (s : State) (w : Cmd) : (s.present w).resp = s.resp := rfl
@[simp] theorem State.present_draws (s : State) (w : Cmd) : (s.present w).draws = s.draws := rfl

/-! ## Arenas -/

@[simp] theorem State.arena_large (s : State) : s.arena .large = s.large := rfl

@[simp] theorem State.arena_small (s : State) : s.arena .small = s.small := rfl

theorem State.withArena_arena (s : State) (sp sq : Space) (a : Arena) :
    (s.withArena sp a).arena sq = if sq = sp then a else s.arena sq := by
  cases sp <;> cases sq <;> rfl

@[simp] theorem State.withArena_arena_self (s : State) (sp : Space) (a : Arena) : (s.withArena sp a).arena sp = a := by
  cases sp <;> rfl

@[simp] theorem State.withArena_self (s : State) (sp : Space) : s.withArena sp (s.arena sp) = s := by
  cases sp <;> rfl

@[simp] theorem State.withRing_arena (s : State) (i : Fin 2) (r : Ring) (sp : Space) :
    (s.withRing i r).arena sp = s.arena sp := by
  cases sp <;> rfl

@[simp] theorem State.withSvf_arena (s : State) (i : Fin 8) (v : Svf) (sp : Space) :
    (s.withSvf i v).arena sp = s.arena sp := by
  cases sp <;> rfl

@[simp] theorem State.faulted_arena (s : State) (c : Cause) (info : Nat) (w : Cmd) (sp : Space) :
    (s.faulted c info w).arena sp = s.arena sp := by
  cases sp <;> rfl

theorem State.mapMem_arena (s : State) (sp sq : Space) (f : Memory → Memory) :
    (s.mapMem sp f).arena sq =
      if sq = sp then ⟨(s.arena sp).declared, (s.arena sp).size, f (s.arena sp).mem⟩ else s.arena sq := by
  cases sp <;> cases sq <;> rfl

/-- Changing bytes keeps which arenas are declared. -/
@[simp] theorem State.mapMem_declared (s : State) (sp sq : Space) (f : Memory → Memory) :
    ((s.mapMem sp f).arena sq).declared = (s.arena sq).declared := by
  cases sp <;> cases sq <;> rfl

/-- Changing bytes keeps the arena sizes. -/
@[simp] theorem State.mapMem_size (s : State) (sp sq : Space) (f : Memory → Memory) :
    ((s.mapMem sp f).arena sq).size = (s.arena sq).size := by
  cases sp <;> cases sq <;> rfl

theorem State.mapMem_mem (s : State) (sp sq : Space) (f : Memory → Memory) :
    ((s.mapMem sp f).arena sq).mem = if sq = sp then f (s.arena sp).mem else (s.arena sq).mem := by
  cases sp <;> cases sq <;> rfl

/-- A byte after the bytes of an arena changed. -/
theorem State.mapMem_byte? (s : State) (sp sq : Space) (f : Memory → Memory) (a : Nat) :
    (s.mapMem sp f).byte? sq a = if sq = sp then (f (s.arena sp).mem).get? a else s.byte? sq a := by
  cases sp <;> cases sq <;> rfl

@[simp] theorem State.withRing_byte? (s : State) (i : Fin 2) (r : Ring) (sp : Space) (a : Nat) :
    (s.withRing i r).byte? sp a = s.byte? sp a := by
  cases sp <;> rfl

@[simp] theorem State.withSvf_byte? (s : State) (i : Fin 8) (v : Svf) (sp : Space) (a : Nat) :
    (s.withSvf i v).byte? sp a = s.byte? sp a := by
  cases sp <;> rfl

@[simp] theorem State.faulted_byte? (s : State) (c : Cause) (info : Nat) (w : Cmd) (sp : Space) (a : Nat) :
    (s.faulted c info w).byte? sp a = s.byte? sp a := by
  cases sp <;> rfl

/-- Two changes of one arena's bytes are one change. -/
theorem State.mapMem_mapMem (s : State) (sp : Space) (f g : Memory → Memory) :
    (s.mapMem sp f).mapMem sp g = s.mapMem sp fun m => g (f m) := by
  cases sp <;> rfl

/-- A change of bytes and a change of a ring buffer's registers do not meet. -/
theorem State.withRing_mapMem (s : State) (i : Fin 2) (r : Ring) (sp : Space) (f : Memory → Memory) :
    (s.withRing i r).mapMem sp f = (s.mapMem sp f).withRing i r := by
  cases sp <;> rfl

/-- Changing no byte changes nothing. -/
@[simp] theorem State.mapMem_id (s : State) (sp : Space) : (s.mapMem sp fun m => m) = s := by
  cases sp <;> rfl

/-! ## Register sets -/

@[simp] theorem State.withRing_get_self (s : State) (i : Fin 2) (r : Ring) : (s.withRing i r).rings[i] = r := by
  simp

theorem State.withRing_get_other (s : State) {i j : Fin 2} (h : i ≠ j) (r : Ring) :
    (s.withRing i r).rings[j] = s.rings[j] := by
  have : i.val ≠ j.val := fun e => h (Fin.ext e)
  simp [this]

/-- The last of two changes of one ring buffer's registers stands. -/
@[simp] theorem State.withRing_withRing (s : State) (i : Fin 2) (r q : Ring) :
    (s.withRing i r).withRing i q = s.withRing i q := by
  simp [State.withRing]

@[simp] theorem State.withRing_self (s : State) (i : Fin 2) : s.withRing i s.rings[i] = s := by
  simp [State.withRing]

@[simp] theorem State.withSvf_get_self (s : State) (i : Fin 8) (v : Svf) : (s.withSvf i v).svfs[i] = v := by
  simp

theorem State.withSvf_get_other (s : State) {i j : Fin 8} (h : i ≠ j) (v : Svf) :
    (s.withSvf i v).svfs[j] = s.svfs[j] := by
  have : i.val ≠ j.val := fun e => h (Fin.ext e)
  simp [this]

@[simp] theorem mapVector_getElem {α β : Type} {n : Nat} (f : α → β) (v : Vector α n) (k : Nat) (h : k < n) :
    (mapVector f v)[k] = f v[k] := by
  simp [mapVector]

end Sys2Proof.Machine
end

