-- ==== Sys2Proof/Laws/Ops.lean ====
section
/-! SUPPORT. What each shared operation of Machine/Ops.lean can do, said once: the ends of a command, taking a fault, the ports,
and the arena accesses. -/

namespace Sys2Proof.Machine

/-! ## Ends of a command -/

/-- A command that completes writes `RESP` and `CMDCNT` on top of its own effect. -/
@[simp] theorem complete_eq (resp : Option Word) (s : State) :
    complete resp s = .next { s with resp := resp, cmdcnt := s.cmdcnt + 1 } := rfl

/-- Taking a fault writes the five fault registers and clears the response. -/
theorem raise_eq (c : Cause) (info : Nat) (w : Cmd) (s : State) : raise c info w s = .next (s.faulted c info w) := rfl

/-- A discarded word only clears the response. -/
@[simp] theorem discard_eq (s : State) : discard s = .next { s with resp := none } := rfl

theorem unlessFaulted_of_clear {s : State} (h : s.fault = false) (run : Result) : unlessFaulted s run = run := by
  simp [unlessFaulted, h]

theorem unlessFaulted_of_fault {s : State} (h : s.fault = true) (run : Result) :
    unlessFaulted s run = .next { s with resp := none } := by
  simp [unlessFaulted, h]

/-- The two ends `unlessFaulted` has. -/
theorem unlessFaulted_cases {s : State} {run r : Result} (h : unlessFaulted s run = r) :
    (s.fault = true ∧ r = .next { s with resp := none }) ∨ (s.fault = false ∧ r = run) := by
  unfold unlessFaulted at h
  split at h
  · exact .inl ⟨by assumption, h.symm⟩
  · exact .inr ⟨by simpa using ‹¬s.fault = true›, h.symm⟩

/-- The five causes have five codes, 1 to 5. -/
theorem causeCode_inj {c d : Cause} (h : causeCode c = causeCode d) : c = d := by
  revert h
  cases c <;> cases d <;> decide

theorem causeCode_range (c : Cause) : 1 ≤ (causeCode c).toNat ∧ (causeCode c).toNat ≤ 5 := by
  cases c <;> decide

/-! ## The ports -/

theorem nextEvent_nil {s : State} (h : s.inputs = []) : nextEvent s = none := by
  simp [nextEvent, h]

theorem nextEvent_cons {s : State} {e : HostEvent} {rest : List HostEvent} (h : s.inputs = e :: rest) :
    nextEvent s = some (e, { s with inputs := rest }) := by
  simp [nextEvent, h]

@[simp] theorem nextEvent_present (s : State) (w : Cmd) : nextEvent (s.present w) = some (.command w, s) := rfl

/-- What a step does with an idle port. -/
theorem step_nil {s : State} (h : s.inputs = []) : step s = .next s := by
  simp [step, nextEvent_nil h]

/-- What a step does with a reset. -/
theorem step_reset {s : State} {rest : List HostEvent} (h : s.inputs = .reset :: rest) :
    step s = .next { State.resetFor s.hw with inputs := rest, draws := s.draws } := by
  simp [step, nextEvent_cons h, hardwareReset]

/-- What a step does with a command word. -/
theorem step_command {s : State} {w : Cmd} {rest : List HostEvent} (h : s.inputs = .command w :: rest) :
    step s =
      match decode w with
      | .ok i => exec i { s with inputs := rest }
      | .error _ => illegalCommand w { s with inputs := rest } := by
  cases hd : decode w <;> simp [step, nextEvent_cons h, hd]

/-- The three kinds of step, once for every claim about `step`. -/
theorem step_cases {s : State} {r : Result} (h : step s = r) :
    (s.inputs = [] ∧ r = .next s) ∨
    (∃ rest, s.inputs = .reset :: rest ∧ r = .next { State.resetFor s.hw with inputs := rest, draws := s.draws }) ∨
    (∃ w rest i, s.inputs = .command w :: rest ∧ decode w = .ok i ∧ r = exec i { s with inputs := rest }) ∨
    (∃ w rest e, s.inputs = .command w :: rest ∧ decode w = .error e ∧
      r = illegalCommand w { s with inputs := rest }) := by
  subst h
  cases hi : s.inputs with
  | nil => exact .inl ⟨rfl, step_nil hi⟩
  | cons ev rest =>
    cases ev with
    | reset => exact .inr (.inl ⟨rest, rfl, step_reset hi⟩)
    | command w =>
      rw [step_command hi]
      cases hd : decode w with
      | ok i => exact .inr (.inr (.inl ⟨w, rest, i, rfl, hd, rfl⟩))
      | error e => exact .inr (.inr (.inr ⟨w, rest, e, rfl, hd, rfl⟩))

/-! ## Blocks -/

@[simp] theorem zeroBlock_length (n : Nat) : (zeroBlock n).length = n := List.length_replicate

@[simp] theorem blockOf_getElem (n : Nat) (xs : List Frame) (k : Nat) (h : k < n) :
    (blockOf n xs)[k] = xs.getD k Frame.zero := by
  simp [blockOf]

/-- A block made of a vector's list is that vector. -/
@[simp] theorem blockOf_toList {n : Nat} (v : Vector Frame n) : blockOf n v.toList = v := by
  apply Vector.ext
  intro k hk
  simp [List.getD_eq_getElem?_getD, hk]

/-- `BLOCK_SIZE` is even, 2 to 256 (00_scope.md R8). -/
theorem blockSize_bounds (hw : HwParams) :
    hw.blockSize % 2 = 0 ∧ 2 ≤ hw.blockSize ∧ hw.blockSize ≤ Config.maxBlockSize := by
  have := hw.halfBlock.isLt
  unfold HwParams.blockSize Config.maxBlockSize
  omega

end Sys2Proof.Machine
end

