-- ==== Sys2Proof/Laws/PerInstr.lean ====
section
/-! SUPPORT. The per-instruction family `LegalWord`: the word of every command matches its row of the opcode map (30_encoding.md
R65), at every operand. -/

namespace Sys2Proof.Laws

open Sys2Proof.Machine

/-- The word of a command matches its row of the opcode map (30_encoding.md R65). -/
def LegalWord.Statement (i : Instr) : Prop := encode i &&& (rowOf i).mask = (rowOf i).pattern

/-- A word of four fields matches a row when each field matches its part of the row. -/
theorem packWord_and (opc a : BitVec 8) (b : BitVec 16) (c : BitVec 32) (mo ma : BitVec 8) (mb : BitVec 16)
    (mc : BitVec 32) (x y : BitVec 8) (z : BitVec 16) (u : BitVec 32) (h1 : opc &&& mo = x) (h2 : a &&& ma = y)
    (h3 : b &&& mb = z) (h4 : c &&& mc = u) :
    packWord opc a b c &&& packWord mo ma mb mc = packWord x y z u := by
  subst h1 h2 h3 h4
  exact BitVec.and_append.trans
    (congrArg (· ++ _) (BitVec.and_append.trans (congrArg (· ++ _) BitVec.and_append)))

/-- An `A` field made of one flag has no higher bit. -/
theorem aFlags_one (f : BitVec 1) : aFlags 0 0 f &&& 0xFE = 0 := by
  revert f; decide

/-- An `A` field made of two flags has no higher bit. -/
theorem aFlags_two (f g : BitVec 1) : aFlags 0 f g &&& 0xFC = 0 := by
  revert f g; decide

/-- An `A` field made of three flags has no higher bit. -/
theorem aFlags_three (f g h : BitVec 1) : aFlags f g h &&& 0xF8 = 0 := by
  revert f g h; decide

/-- The `A` field of a filter instance has no higher bit. -/
theorem filterBits_high (i : Fin 8) : filterBits i &&& 0xF8 = 0 := by
  revert i; decide

/-- A word of format `D` matches a row when its opcode and its `A` field match. -/
theorem packWordD_and (opc a : BitVec 8) (base size : BitVec 24) (mo ma x y : BitVec 8) (h1 : opc &&& mo = x)
    (h2 : a &&& ma = y) : packWordD opc a base size &&& packWordD mo ma 0 0 = packWordD x y 0 0 := by
  subst h1 h2
  exact BitVec.and_append.trans (congrArg₂ (· ++ ·)
    (BitVec.and_append.trans (congrArg₂ (· ++ ·) BitVec.and_append BitVec.and_zero)) BitVec.and_zero)

theorem LegalWord.nop : Statement .nop := by unfold Statement; decide
theorem LegalWord.csrr (addr : BitVec 16) : Statement (.csrr addr) :=
  packWord_and 0x01 0 addr 0 0xFF 0xFF 0 0xFFFFFFFF _ _ _ _ rfl rfl BitVec.and_zero rfl
theorem LegalWord.arena (which : Space) (size : BitVec 32) : Statement (.arena which size) :=
  packWord_and 0x02 _ 0 size 0xFF 0xFE 0xFFFF 0 _ _ _ _ rfl (aFlags_one _) rfl BitVec.and_zero
theorem LegalWord.tblinit (sampleRate : BitVec 32) : Statement (.tblinit sampleRate) :=
  packWord_and 0x03 0 0 sampleRate 0xFF 0xFF 0xFFFF 0 _ _ _ _ rfl rfl rfl BitVec.and_zero
theorem LegalWord.init (sampleRate : BitVec 32) : Statement (.init sampleRate) :=
  packWord_and 0x04 0 0 sampleRate 0xFF 0xFF 0xFFFF 0 _ _ _ _ rfl rfl rfl BitVec.and_zero
theorem LegalWord.pset (index : BitVec 8) (value : BitVec 16) : Statement (.pset index value) :=
  packWord_and 0x05 index value 0 0xFF 0 0 0xFFFFFFFF _ _ _ _ rfl BitVec.and_zero BitVec.and_zero rfl
theorem LegalWord.setmode (mode : BitVec 8) : Statement (.setmode mode) :=
  packWord_and 0x06 mode 0 0 0xFF 0 0xFFFF 0xFFFFFFFF _ _ _ _ rfl BitVec.and_zero rfl rfl
theorem LegalWord.setqual (quality : BitVec 8) : Statement (.setqual quality) :=
  packWord_and 0x07 quality 0 0 0xFF 0 0xFFFF 0xFFFFFFFF _ _ _ _ rfl BitVec.and_zero rfl rfl
theorem LegalWord.setsil (flag : Bool) : Statement (.setsil flag) :=
  packWord_and 0x08 _ 0 0 0xFF 0xFE 0xFFFF 0xFFFFFFFF _ _ _ _ rfl (aFlags_one _) rfl rfl
theorem LegalWord.setbyp (flag : Bool) : Statement (.setbyp flag) :=
  packWord_and 0x09 _ 0 0 0xFF 0xFE 0xFFFF 0xFFFFFFFF _ _ _ _ rfl (aFlags_one _) rfl rfl
theorem LegalWord.rstbuf : Statement .rstbuf := by unfold Statement; decide
theorem LegalWord.prepare : Statement .prepare := by unfold Statement; decide
theorem LegalWord.process (size : BitVec 16) : Statement (.process size) :=
  packWord_and 0x0C 0 size 0 0xFF 0xFF 0 0xFFFFFFFF _ _ _ _ rfl rfl BitVec.and_zero rfl
theorem LegalWord.framew (index left right : BitVec 16) : Statement (.framew index left right) :=
  packWord_and 0x0D 0 index _ 0xFF 0xFF 0 0 _ _ _ _ rfl rfl BitVec.and_zero BitVec.and_zero
theorem LegalWord.framer (index : BitVec 16) : Statement (.framer index) :=
  packWord_and 0x0E 0 index 0 0xFF 0xFF 0 0xFFFFFFFF _ _ _ _ rfl rfl BitVec.and_zero rfl
theorem LegalWord.peek (space : Space) (addr : BitVec 32) : Statement (.peek space addr) :=
  packWord_and 0x0F _ 0 addr 0xFF 0xFE 0xFFFF 0 _ _ _ _ rfl (aFlags_one _) rfl BitVec.and_zero
theorem LegalWord.rbinit (inst : Fin 2) (space : Space) (enc : SampleFormat) (base size : BitVec 24) :
    Statement (.rbinit inst space enc base size) :=
  packWordD_and 0x10 _ base size 0xFF 0xF8 _ _ rfl (aFlags_three _ _ _)
theorem LegalWord.rbwf (inst : Fin 2) (allow : Bool) (count stride src : BitVec 16) :
    Statement (.rbwf inst allow count stride src) :=
  packWord_and 0x11 _ count _ 0xFF 0xFC 0 0 _ _ _ _ rfl (aFlags_two _ _) BitVec.and_zero BitVec.and_zero
theorem LegalWord.rbrd (inst : Fin 2) (offset : BitVec 32) (frac : BitVec 16) : Statement (.rbrd inst offset frac) :=
  packWord_and 0x12 _ frac offset 0xFF 0xFE 0 0 _ _ _ _ rfl (aFlags_one _) BitVec.and_zero BitVec.and_zero
theorem LegalWord.svfrst (inst : Fin 8) : Statement (.svfrst inst) :=
  packWord_and 0x18 _ 0 0 0xFF 0xF8 0xFFFF 0xFFFFFFFF _ _ _ _ rfl (filterBits_high _) rfl rfl
theorem LegalWord.svfset (inst : Fin 8) (f : BitVec 16) (q : BitVec 32) : Statement (.svfset inst f q) :=
  packWord_and 0x19 _ f q 0xFF 0xF8 0 0 _ _ _ _ rfl (filterBits_high _) BitVec.and_zero BitVec.and_zero
theorem LegalWord.svfstep (inst : Fin 8) (x : BitVec 32) : Statement (.svfstep inst x) :=
  packWord_and 0x1A _ 0 x 0xFF 0xF8 0xFFFF 0 _ _ _ _ rfl (filterBits_high _) rfl BitVec.and_zero
theorem LegalWord.lim (x : BitVec 32) : Statement (.lim x) :=
  packWord_and 0x1C 0 0 x 0xFF 0xFF 0xFFFF 0 _ _ _ _ rfl rfl rfl BitVec.and_zero
theorem LegalWord.xfade (dw dry wet : BitVec 16) : Statement (.xfade dw dry wet) :=
  packWord_and 0x1D 0 dw _ 0xFF 0xFF 0 0 _ _ _ _ rfl rfl BitVec.and_zero BitVec.and_zero

end Sys2Proof.Laws
end

