-- ==== Sys2Proof/Laws/RingBuffer.lean ====
section
/-! SUPPORT. What the ring buffer operations do to the state: a store changes the bytes of one arena, a write also the instance's
cursor, fade and tail, a binding the whole register set; nothing else moves. -/

namespace Sys2Proof.Machine

/-! ## Stores -/

/-- The change a store makes to the bytes of the instance's arena. -/
def storeIn (r : Ring) (a : Nat) (v : Int) (m : Memory) : Memory :=
  match r.enc with
  | .linear16 =>
    (m.put (sampleAddress r a) ((toHalf v).extractLsb' 0 8)).put (sampleAddress r a + 1) ((toHalf v).extractLsb' 8 8)
  | .mulaw8 => m.put (sampleAddress r a) (mulawEncode v)

/-- A store changes the bytes of its instance's arena and nothing else. -/
theorem rbStore_eq (s : State) (i : Fin 2) (a : Nat) (v : Int) :
    rbStore s i a v = s.mapMem s.rings[i].space (storeIn s.rings[i] a v) := by
  unfold rbStore storeIn
  dsimp only
  split
  · rename_i h
    simp only [h, State.storeHalf, State.storeByte, State.mapMem_mapMem]
  · rename_i h
    simp only [h, State.storeByte]

theorem storeIn_wf {m : Memory} (h : m.wf = true) (r : Ring) (a : Nat) (v : Int) : (storeIn r a v m).wf = true := by
  unfold storeIn
  split
  · exact Memory.put_wf (Memory.put_wf h _ _) _ _
  · exact Memory.put_wf h _ _

/-- A store leaves the bytes of every other sample alone. -/
theorem storeIn_get?_other {m : Memory} (h : m.wf = true) {r : Ring} {a x : Nat} (hx : ¬ inSample r a x) (v : Int) :
    (storeIn r a v m).get? x = m.get? x := by
  unfold inSample at hx
  unfold storeIn
  split
  · rename_i he
    rw [he, sampleWidth] at hx
    rw [Memory.get?_put_other (Memory.put_wf h _ _) (by omega), Memory.get?_put_other h (by omega)]
  · rename_i he
    rw [he, sampleWidth] at hx
    rw [Memory.get?_put_other h (by omega)]

/-- A store leaves no byte of its sample unspecified. -/
theorem storeIn_isSome {m : Memory} (h : m.wf = true) {r : Ring} {a x : Nat} (hx : inSample r a x) (v : Int) :
    ((storeIn r a v m).get? x).isSome = true := by
  unfold inSample at hx
  unfold storeIn
  split
  · rename_i he
    rw [he, sampleWidth] at hx
    by_cases h1 : x = sampleAddress r a + 1
    · rw [h1, Memory.get?_put_self (Memory.put_wf h _ _)]
      rfl
    · rw [Memory.get?_put_other (Memory.put_wf h _ _) h1, show x = sampleAddress r a by omega, Memory.get?_put_self h]
      rfl
  · rename_i he
    rw [he, sampleWidth] at hx
    rw [show x = sampleAddress r a by omega, Memory.get?_put_self h]
    rfl

/-! ## Loads -/

/-- A load depends on the instance's registers and on the bytes of its sample only. -/
theorem rbLoad_congr {s t : State} {i : Fin 2} {a : Nat} (hr : t.rings[i] = s.rings[i])
    (hb : ∀ x, inSample s.rings[i] a x → t.byte? s.rings[i].space x = s.byte? s.rings[i].space x) :
    rbLoad t i a = rbLoad s i a := by
  unfold rbLoad
  dsimp only
  rw [hr]
  have h0 : sampleAddress s.rings[i] a ≤ sampleAddress s.rings[i] a := le_refl _
  split
  · rename_i he
    have e0 := hb (sampleAddress s.rings[i] a) ⟨h0, by rw [he, sampleWidth]; omega⟩
    have e1 := hb (sampleAddress s.rings[i] a + 1) ⟨by omega, by rw [he, sampleWidth]; omega⟩
    simp only [he, State.loadHalf, State.loadByte, e0, e1]
  · rename_i he
    have e0 := hb (sampleAddress s.rings[i] a) ⟨h0, by rw [he, sampleWidth]; omega⟩
    simp only [he, State.loadByte, e0]

/-- Two states with the same arena bytes, and the same encoding, space and base of an instance, load the same samples. -/
theorem rbLoad_withRing (s : State) (i : Fin 2) (r : Ring) (a : Nat) (he : r.enc = s.rings[i].enc)
    (hs : r.space = s.rings[i].space) (hb : r.base = s.rings[i].base) : rbLoad (s.withRing i r) i a = rbLoad s i a := by
  unfold rbLoad
  simp only [State.withRing_get_self, he, hs]
  have ha : sampleAddress r a = sampleAddress s.rings[i] a := by simp only [sampleAddress, he, hb]
  rw [ha]
  cases s.rings[i].enc <;> simp only [State.loadHalf, State.loadByte, State.withRing_byte?]

/-- A change of the other instance's registers does not change a load. -/
theorem rbLoad_withRing_other (s : State) {i j : Fin 2} (h : i ≠ j) (r : Ring) (a : Nat) :
    rbLoad (s.withRing i r) j a = rbLoad s j a :=
  rbLoad_congr (s.withRing_get_other h r) fun _ _ => State.withRing_byte? ..

/-! ## One sample written -/

/-- The registers of an instance after one sample is written. -/
def putRing (s : State) (i : Fin 2) (x : Int) : Ring :=
  { s.rings[i] with
    fade := if 0 < s.rings[i].fade.toNat then s.rings[i].fade - 1 else s.rings[i].fade
    tail :=
      if h : s.rings[i].wcur.toNat < Config.tail then
        s.rings[i].tail.set s.rings[i].wcur.toNat
          (toHalf (rbLoad (rbStore s i s.rings[i].wcur.toNat (rbFaded s i x)) i s.rings[i].wcur.toNat)) h
      else s.rings[i].tail
    wcur := BitVec.ofNat 24 ((s.rings[i].wcur.toNat + 1) % s.rings[i].n.toNat) }

/-- A written sample changes the bytes of one arena and the cursor, fade and tail of its instance. -/
theorem rbPut_eq (s : State) (i : Fin 2) (x : Int) :
    rbPut s i x =
      (s.mapMem s.rings[i].space (storeIn s.rings[i] s.rings[i].wcur.toNat (rbFaded s i x))).withRing i
        (putRing s i x) := by
  rw [← rbStore_eq]
  rfl

/-! ## Writes -/

/-- What a sequence of writes can do: it changes the bytes of one arena by a function that keeps the canonical form and the
specified bytes, and of its instance's registers only the cursor, the fade and the tail. -/
structure Written (s t : State) (i : Fin 2) : Prop where
  effect : ∃ (f : Memory → Memory) (r : Ring), t = (s.mapMem s.rings[i].space f).withRing i r ∧
    (∀ m : Memory, m.wf = true → (f m).wf = true) ∧
    (∀ (m : Memory) (x : Nat), m.wf = true → (m.get? x).isSome = true → ((f m).get? x).isSome = true) ∧
    r.bound = s.rings[i].bound ∧ r.enc = s.rings[i].enc ∧ r.space = s.rings[i].space ∧ r.base = s.rings[i].base ∧
    r.size = s.rings[i].size ∧ r.n = s.rings[i].n

theorem Written.refl (s : State) (i : Fin 2) : Written s s i :=
  ⟨⟨fun m => m, s.rings[i], by rw [State.mapMem_id, State.withRing_self], fun _ h => h, fun _ _ _ h => h, rfl, rfl, rfl,
    rfl, rfl, rfl⟩⟩

theorem Written.trans {s t u : State} {i : Fin 2} (h1 : Written s t i) (h2 : Written t u i) : Written s u i := by
  obtain ⟨f, r, rfl, hw, hs, e1, e2, e3, e4, e5, e6⟩ := h1.effect
  obtain ⟨g, q, rfl, hw', hs', d1, d2, d3, d4, d5, d6⟩ := h2.effect
  simp only [State.withRing_get_self] at d1 d2 d3 d4 d5 d6 ⊢
  refine ⟨⟨fun m => g (f m), q, ?_, fun m h => hw' _ (hw m h), fun m x h hx => hs' _ x (hw m h) (hs m x h hx), ?_, ?_, ?_,
    ?_, ?_, ?_⟩⟩
  · rw [e3, State.withRing_mapMem, State.mapMem_mapMem, State.withRing_withRing]
  · exact d1.trans e1
  · exact d2.trans e2
  · exact d3.trans e3
  · exact d4.trans e4
  · exact d5.trans e5
  · exact d6.trans e6

theorem rbPut_written (s : State) (i : Fin 2) (x : Int) : Written s (rbPut s i x) i := by
  refine ⟨⟨_, _, rbPut_eq s i x, fun m h => storeIn_wf h _ _ _, ?_, rfl, rfl, rfl, rfl, rfl, rfl⟩⟩
  intro m y h hy
  by_cases hx : inSample s.rings[i] s.rings[i].wcur.toNat y
  · exact storeIn_isSome h hx _
  · rw [storeIn_get?_other h hx]
    exact hy

/-- The frame of a write: `RB_WRITE` of any samples, gate open or closed. -/
theorem rbWrite_written (s : State) (i : Fin 2) (xs : List Half) (allow : Bool) : Written s (rbWrite s i xs allow) i := by
  unfold rbWrite
  split
  · exact Written.refl s i
  · split
    · suffices ∀ (ys : List Half) (t : State), Written t (ys.foldl (fun t x => rbPut t i x.toInt) t) i from this xs s
      intro ys
      induction ys with
      | nil => exact fun t => Written.refl t i
      | cons y ys ih => exact fun t => (rbPut_written t i y.toInt).trans (ih _)
    · refine ⟨⟨fun m => m, { s.rings[i] with fade := BitVec.ofNat 7 Config.fadeLen }, ?_, fun _ h => h, fun _ _ _ h => h,
        rfl, rfl, rfl, rfl, rfl, rfl⟩⟩
      rw [State.mapMem_id]

/-- An open write of one more sample is that sample written first. -/
theorem rbWrite_cons (s : State) (i : Fin 2) (x : Half) (xs : List Half) :
    rbWrite s i (x :: xs) true = rbWrite (rbPut s i x.toInt) i xs true := by
  cases xs <;> rfl

/-- A frozen write changes no byte and of the registers only the fade. -/
theorem rbWrite_frozen (s : State) (i : Fin 2) (xs : List Half) (h : xs ≠ []) :
    rbWrite s i xs false = s.withRing i { s.rings[i] with fade := 64 } := by
  cases xs with
  | nil => exact absurd rfl h
  | cons x xs => rfl

/-! ## Binding -/

/-- The registers a binding leaves (41_ring_buffer.md R84). -/
def boundRing (space : Space) (enc : SampleFormat) (base size : BitVec 24) : Ring :=
  ⟨true, enc, space, base, size, BitVec.ofNat 24 (capacity enc size.toNat), 0, 0, Vector.replicate Config.tail 0⟩

/-- A binding writes one register set and zero-fills one region. -/
theorem rbBind_eq (s : State) (i : Fin 2) (space : Space) (enc : SampleFormat) (base size : BitVec 24) :
    rbBind s i space enc base size =
      (s.mapMem space (·.zeroFill base.toNat size.toNat)).withRing i (boundRing space enc base size) := by
  unfold rbBind
  rw [State.withRing_mapMem]
  rfl

theorem rbUnbind_eq (s : State) (i : Fin 2) : rbUnbind s i = s.withRing i Ring.unbound := rfl

theorem capacity_le (enc : SampleFormat) (size : Nat) : capacity enc size ≤ size := by
  cases enc
  · simp only [capacity, Nat.shiftRight_eq_div_pow]
    omega
  · exact le_refl _

/-- The capacity register of a binding holds the capacity. -/
theorem boundRing_n (space : Space) (enc : SampleFormat) (base size : BitVec 24) :
    (boundRing space enc base size).n.toNat = capacity enc size.toNat := by
  have h := capacity_le enc size.toNat
  have h' := size.isLt
  simp only [boundRing, BitVec.toNat_ofNat]
  exact Nat.mod_eq_of_lt (by omega)

end Sys2Proof.Machine
end

