-- ==== Sys2Proof/Laws/Sequencer.lean ====
section
/-! SUPPORT. What each stage of `PREPARE` and `PROCESS` can change, as record updates: a field that a right side does not name is
unchanged. -/

namespace Sys2Proof.Machine

/-! ## PREPARE -/

/-- An engine init names all it writes (48_sequencer.md R154). -/
theorem engineInit_eq (s : State) :
    engineInit s =
      { s with
        loopSync := false
        search := Search.idle
        grains := if s.mode = .granular then GrainPool.fresh else s.grains
        kernels := engineKernels s.kernels s.kargs s.mode } := rfl

/-- A lightweight reset names all it writes (48_sequencer.md R153). -/
theorem lightReset_eq (s : State) :
    lightReset s =
      { s with
        svfs := clearAllSvf s.svfs
        kernels := engineKernels { s.kernels with ps := Config.psInit s.kargs } s.kargs s.mode
        loopSync := false
        search := Search.idle
        grains := if s.mode = .granular then GrainPool.fresh else s.grains
        prevMode := some s.mode } := rfl

/-- Background work touches the search registers and the phase vocoder's state (48_sequencer.md R155). -/
theorem background_eq (s : State) :
    background s =
      { s with search := (background s).search, kernels := { s.kernels with pv := (background s).kernels.pv } } := by
  unfold background
  split <;> rfl

theorem mapMem_large (s : State) (f : Memory → Memory) :
    s.mapMem .large f = { s with large := { s.large with mem := f s.large.mem } } := rfl

theorem mapMem_small (s : State) (f : Memory → Memory) :
    s.mapMem .small f = { s with small := { s.small with mem := f s.small.mem } } := rfl

theorem rbBind_large (s : State) (i : Fin 2) (enc : SampleFormat) (base size : BitVec 24) :
    rbBind s i .large enc base size =
      { s with
        large := { s.large with mem := s.large.mem.zeroFill base.toNat size.toNat }
        rings := s.rings.set i (boundRing .large enc base size) } := rfl

theorem rbBind_small (s : State) (i : Fin 2) (enc : SampleFormat) (base size : BitVec 24) :
    rbBind s i .small enc base size =
      { s with
        small := { s.small with mem := s.small.mem.zeroFill base.toNat size.toNat }
        rings := s.rings.set i (boundRing .small enc base size) } := rfl

/-- The bytes of `LARGE` after a carve-up. -/
def carvedLarge (plan : Partition) (m : Memory) : Memory :=
  match plan.wsSpace with
  | .large => (m.zeroFill 0 plan.ringSize.toNat).forget plan.wsBase.toNat plan.wsSize.toNat
  | .small => m.zeroFill 0 plan.ringSize.toNat

/-- The bytes of `SMALL` before the workspace is forgotten. -/
def carvedSmallRing (plan : Partition) (m : Memory) : Memory :=
  if plan.stereo then m.zeroFill 0 plan.ringSize.toNat else m

/-- The bytes of `SMALL` after a carve-up. -/
def carvedSmall (plan : Partition) (m : Memory) : Memory :=
  match plan.wsSpace with
  | .large => carvedSmallRing plan m
  | .small => (carvedSmallRing plan m).forget plan.wsBase.toNat plan.wsSize.toNat

/-- The ring buffers after a carve-up: `RB[0]` bound in `LARGE`, `RB[1]` bound in `SMALL` or unbound. -/
def carvedRings (format : SampleFormat) (plan : Partition) : Vector Ring 2 :=
  #v[boundRing .large format 0 plan.ringSize,
    if plan.stereo then boundRing .small format 0 plan.ringSize else Ring.unbound]

/-- Both elements of a pair of register sets written. -/
theorem setBoth {α : Type} (v : Vector α 2) (a b : α) : (v.set 0 a).set 1 b = #v[a, b] := by
  apply Vector.ext
  intro k hk
  have : k = 0 ∨ k = 1 := by omega
  rcases this with rfl | rfl <;> simp

/-- A carve-up touches the bytes of the arenas, the ring buffers and the workspace registers (20_memory.md R53). -/
theorem carve_eq (s : State) (plan : Partition) :
    carve s plan =
      { s with
        large := { s.large with mem := carvedLarge plan s.large.mem }
        small := { s.small with mem := carvedSmall plan s.small.mem }
        rings := carvedRings s.format plan
        wsSpace := plan.wsSpace
        wsBase := plan.wsBase
        wsSize := plan.wsSize } := by
  obtain ⟨size, stereo, sp, base, ws⟩ := plan
  have h' (v : Vector Ring 2) (a b c : Ring) : ((v.set 0 a).set 1 b).set 0 c = #v[c, b] := by
    rw [setBoth]
    rfl
  cases stereo <;> cases sp <;>
    simp only [carve, rbUnbind_eq, State.withRing, rbBind_large, rbBind_small, mapMem_large, mapMem_small, carvedLarge,
      carvedSmall, carvedSmallRing, carvedRings, if_true, if_false, Bool.false_eq_true, Fin.isValue, Fin.val_zero,
      Fin.val_one, h'] <;> rfl

/-- Every byte after a carve-up: the workspace is unspecified, the rings' regions are zero, the rest is as before. -/
theorem carve_byte? (s : State) (plan : Partition) (hl : s.large.mem.wf = true) (hs : s.small.mem.wf = true)
    (sp : Space) (x : Nat) :
    (carve s plan).byte? sp x =
      if sp = plan.wsSpace ∧ plan.wsBase.toNat ≤ x ∧ x < plan.wsBase.toNat + plan.wsSize.toNat then none
      else if (sp = .large ∨ plan.stereo = true) ∧ x < plan.ringSize.toNat then some 0
      else s.byte? sp x := by
  have z1 := Memory.zeroFill_wf hl 0 plan.ringSize.toNat
  have z2 := Memory.zeroFill_wf hs 0 plan.ringSize.toNat
  rw [carve_eq]
  obtain ⟨size, stereo, wsp, base, ws⟩ := plan
  cases stereo <;> cases wsp <;> cases sp <;>
    simp [State.byte?, carvedLarge, carvedSmall, carvedSmallRing, Memory.get?_forget, Memory.get?_zeroFill, hl, hs, z1, z2]

/-- A full re-partition in terms of its carve-up (48_sequencer.md R152). -/
theorem fullReset_eq (s : State) (plan : Partition) :
    ∃ t, t = carve { s with p := s.p.set 9 (s.p[9] &&& 0xFFFE) } plan ∧
      fullReset s plan =
        { t with
          svfs := clearAllSvf s.svfs
          upPrev := Frame.zero
          kernels := engineKernels
            { s.kernels with diff := Config.diffInit t.kargs, ps := Config.psInit t.kargs, rev := Config.revInit t.kargs }
            t.kargs s.mode
          loopSync := false
          search := Search.idle
          grains := if s.mode = .granular then GrainPool.fresh else s.grains
          resetPending := false
          prevMode := some s.mode } := by
  refine ⟨_, rfl, ?_⟩
  rw [fullReset, carve_eq]
  rfl

/-! ## PROCESS -/

/-- Step 4 touches the follower and filters 0 and 1 (48_sequencer.md R160). -/
theorem feedbackStage_eq (s : State) (w : List Frame) :
    (feedbackStage s w).1 =
      { s with freezeLp := freezeFollow s.frozen s.freezeLp, svfs := (feedbackStage s w).1.svfs } := rfl

/-- Step 5a touches filters 2 and 3 (48_sequencer.md R161). -/
theorem decimateStage_eq (s : State) (w : List Frame) :
    (decimateStage s w).1 = { s with svfs := (decimateStage s w).1.svfs } := by
  unfold decimateStage
  split <;> rfl

/-- Step 4 runs each feedback filter once for each frame of `FBBUF` (48_sequencer.md R160). -/
theorem feedbackBlock_filters (gain : Int) (vl vr : Svf) (fs ws : List Frame) (h : fs.length = ws.length) :
    (feedbackBlock gain vl vr fs ws).1 = svfRun vl (fs.map (·.l.toInt)) ∧
      (feedbackBlock gain vl vr fs ws).2.1 = svfRun vr (fs.map (·.r.toInt)) ∧
      (feedbackBlock gain vl vr fs ws).2.2.length = ws.length := by
  induction fs generalizing vl vr ws with
  | nil => cases ws with
    | nil => exact ⟨rfl, rfl, rfl⟩
    | cons w ws => exact nomatch h
  | cons f fs ih => cases ws with
    | nil => exact nomatch h
    | cons w ws =>
      have h := ih (svfStep vl f.l.toInt) (svfStep vr f.r.toInt) ws (by simpa using h)
      simpa [feedbackBlock, feedbackSample, svfRun] using h

/-- Step 5a in low fidelity runs each decimation filter once for each frame and keeps half of them (48_sequencer.md R161). -/
theorem decimateBlock_filters (vl vr : Svf) (k : Nat) (ws : List Frame) (h : ws.length = 2 * k) :
    (decimateBlock vl vr ws).1 = svfRun vl (ws.map (·.l.toInt)) ∧
      (decimateBlock vl vr ws).2.1 = svfRun vr (ws.map (·.r.toInt)) ∧
      (decimateBlock vl vr ws).2.2.length = k := by
  induction k generalizing vl vr ws with
  | zero =>
    obtain rfl := List.length_eq_zero_iff.1 h
    exact ⟨rfl, rfl, rfl⟩
  | succ k ih =>
    match ws, h with
    | f :: g :: rest, h =>
      have h := ih (svfStep (svfStep vl f.l.toInt) g.l.toInt) (svfStep (svfStep vr f.r.toInt) g.r.toInt) rest
        (by simp at h; omega)
      simpa [decimateBlock, svfRun] using h

/-- Step 9 runs the low-pass of a channel once for each sample and keeps them all (48_sequencer.md R168). -/
theorem toneChannel_lowPass (lp hp : Svf) (xs : List Half) :
    (toneChannel lp hp xs).1 = svfRun lp (xs.map (·.toInt)) ∧ (toneChannel lp hp xs).2.2.length = xs.length := by
  induction xs generalizing lp hp with
  | nil => exact ⟨rfl, rfl⟩
  | cons x xs ih => simpa [toneChannel, toneSample, svfRun] using ih _ _

/-- Step 6b touches the ring buffers (48_sequencer.md R163). -/
theorem recordStage_written (s : State) (x : List Frame) :
    ∃ t, Written s t 0 ∧ Written t (recordStage s x) 1 := by
  unfold recordStage
  split
  · exact ⟨s, Written.refl s 0, Written.refl s 1⟩
  · dsimp only
    split
    · exact ⟨_, rbWrite_written s 0 _ _, Written.refl _ 1⟩
    · exact ⟨_, rbWrite_written s 0 _ _, rbWrite_written _ 1 _ _⟩

/-- A write touches the bytes of the arenas and the ring buffers. -/
theorem Written.frame {s t : State} {i : Fin 2} (h : Written s t i) :
    t = { s with large := t.large, small := t.small, rings := t.rings } ∧
      t.large.declared = s.large.declared ∧ t.large.size = s.large.size ∧
      t.small.declared = s.small.declared ∧ t.small.size = s.small.size := by
  obtain ⟨f, r, rfl, _⟩ := h.effect
  cases s.rings[i].space <;> exact ⟨rfl, rfl, rfl, rfl, rfl⟩

/-- Step 6b touches the bytes of the arenas and the ring buffers. -/
theorem recordStage_eq (s : State) (x : List Frame) :
    recordStage s x =
      { s with
        large := (recordStage s x).large
        small := (recordStage s x).small
        rings := (recordStage s x).rings } := by
  obtain ⟨t, h0, h1⟩ := recordStage_written s x
  have e1 := h1.frame.1
  rw [h0.frame.1] at e1
  exact e1

/-- Step 6c touches the grain engine, the search, the kernels and `LOOP_SYNC` (48_sequencer.md R164). -/
theorem playStage_eq (s : State) (x : List Frame) :
    (playStage s x).1 =
      { s with
        grains := (playStage s x).1.grains
        search := (playStage s x).1.search
        kernels := (playStage s x).1.kernels
        loopSync := (playStage s x).1.loopSync } := by
  unfold playStage
  split <;> rfl

/-- Step 5b touches `UP_PREV` (48_sequencer.md R165). -/
theorem upsampleStage_eq (n : Nat) (s : State) (e : List Frame) :
    (upsampleStage n s e).1 = { s with upPrev := (upsampleStage n s e).1.upPrev } := by
  unfold upsampleStage
  split <;> rfl

/-- Step 7 touches the diffuser's state (48_sequencer.md R166). -/
theorem diffuseStage_eq {n : Nat} (s : State) (u : Vector Frame n) :
    (diffuseStage s u).1 = { s with kernels := { s.kernels with diff := (diffuseStage s u).1.kernels.diff } } := by
  unfold diffuseStage
  split <;> rfl

/-- Step 8 touches the pitch shifter's state (48_sequencer.md R167). -/
theorem pitchStage_eq {n : Nat} (s : State) (u : Vector Frame n) :
    (pitchStage s u).1 = { s with kernels := { s.kernels with ps := (pitchStage s u).1.kernels.ps } } := by
  unfold pitchStage
  split <;> rfl

/-- Step 9 touches filters 4 to 7 (48_sequencer.md R168). -/
theorem toneStage_eq {n : Nat} (s : State) (u : Vector Frame n) :
    (toneStage s u).1 = { s with svfs := (toneStage s u).1.svfs } := by
  unfold toneStage
  split <;> rfl

/-- Step 11 touches the reverb's state (48_sequencer.md R170). -/
theorem reverbStage_eq {n : Nat} (s : State) (u : Vector Frame n) :
    (reverbStage s u).1 = { s with kernels := { s.kernels with rev := (reverbStage s u).1.kernels.rev } } := rfl

/-- Steps 3 to 6a touch the follower, the filters and the derived parameters. -/
theorem processInput_eq (s : State) :
    (processInput s).1 =
      { s with
        freezeLp := freezeFollow s.frozen s.freezeLp
        svfs := (processInput s).1.svfs
        drv := derived { s with freezeLp := freezeFollow s.frozen s.freezeLp } } := by
  unfold processInput
  dsimp only
  rw [deriveStage, decimateStage_eq, feedbackStage_eq]
  rfl

/-- Steps 6b to 5b touch the ring buffers, the engines and `UP_PREV`. -/
theorem processPlay_eq (n : Nat) (s : State) (x : List Frame) :
    (processPlay n s x).1 =
      { s with
        large := (recordStage s x).large
        small := (recordStage s x).small
        rings := (recordStage s x).rings
        grains := (processPlay n s x).1.grains
        search := (processPlay n s x).1.search
        kernels := (processPlay n s x).1.kernels
        loopSync := (processPlay n s x).1.loopSync
        upPrev := (processPlay n s x).1.upPrev } := by
  have h3 : ∃ l sm rs, recordStage s x = { s with large := l, small := sm, rings := rs } := ⟨_, _, _, recordStage_eq s x⟩
  have h2 (r : State) : ∃ g w k b, (playStage r x).1 = { r with grains := g, search := w, kernels := k, loopSync := b } :=
    ⟨_, _, _, _, playStage_eq r x⟩
  have h1 (a : State) (e : List Frame) : ∃ up, (upsampleStage n a e).1 = { a with upPrev := up } :=
    ⟨_, upsampleStage_eq n a e⟩
  unfold processPlay
  dsimp only
  obtain ⟨l, sm, rs, h3⟩ := h3
  rw [h3]
  obtain ⟨g, w, k, b, h2⟩ := h2 { s with large := l, small := sm, rings := rs }
  rw [h2]
  obtain ⟨up, h1⟩ := h1 { s with large := l, small := sm, rings := rs, grains := g, search := w, kernels := k, loopSync := b }
    (playStage { s with large := l, small := sm, rings := rs } x).2
  simp only [h1]

/-- Steps 6b to 5b leave the reverb's state (48_sequencer.md R164, R170). -/
theorem processPlay_rev (n : Nat) (s : State) (x : List Frame) : (processPlay n s x).1.kernels.rev = s.kernels.rev := by
  obtain ⟨l, sm, rs, h3⟩ : ∃ l sm rs, recordStage s x = { s with large := l, small := sm, rings := rs } :=
    ⟨_, _, _, recordStage_eq s x⟩
  unfold processPlay
  dsimp only
  rw [h3, upsampleStage_eq]
  unfold playStage
  split <;> rfl

/-- Steps 7 to 12 touch the kernels, the filters, `FBBUF`, `OUTBUF` and `DW_PREV`. -/
theorem processEffects_eq {n : Nat} (s : State) (u : Vector Frame n) :
    processEffects s u =
      { s with
        kernels := (processEffects s u).kernels
        svfs := (processEffects s u).svfs
        fbbuf := (processEffects s u).fbbuf
        outbuf := (processEffects s u).outbuf
        dwPrev := s.p[5] } := by
  have h : ∃ k v f o, processEffects s u =
      { s with kernels := k, svfs := v, fbbuf := f, outbuf := o, dwPrev := s.p[5] } := by
    obtain ⟨k1, u1, h1⟩ : ∃ k v, diffuseStage s u = ({ s with kernels := k }, v) :=
      ⟨_, _, Prod.ext (diffuseStage_eq s u) rfl⟩
    obtain ⟨k2, u2, h2⟩ : ∃ k v, pitchStage { s with kernels := k1 } u1 = ({ s with kernels := k }, v) :=
      ⟨_, _, Prod.ext (pitchStage_eq { s with kernels := k1 } u1) rfl⟩
    obtain ⟨f3, u3, h3⟩ : ∃ f v, toneStage { s with kernels := k2 } u2 = ({ s with kernels := k2, svfs := f }, v) :=
      ⟨_, _, Prod.ext (toneStage_eq { s with kernels := k2 } u2) rfl⟩
    obtain ⟨k4, u4, h4⟩ : ∃ k v, reverbStage { s with kernels := k2, svfs := f3, fbbuf := u3.toList } u3 =
        ({ s with kernels := k, svfs := f3, fbbuf := u3.toList }, v) :=
      ⟨_, _, Prod.ext (reverbStage_eq { s with kernels := k2, svfs := f3, fbbuf := u3.toList } u3) rfl⟩
    refine ⟨k4, f3, u3.toList, (mixBlock s.dwPrev.toNat s.p[5].toNat s.inbuf u4).toList, ?_⟩
    simp only [processEffects, h1, h2, h3, h4, mixStage]
  obtain ⟨k, v, f, o, h⟩ := h
  simp only [h]

/-- The frame of steps 3 to 12, with the registers whose value does not depend on the audio. -/
theorem processBlock_eq (s : State) :
    processBlock s =
      { s with
        freezeLp := freezeFollow s.frozen s.freezeLp
        drv := derived { s with freezeLp := freezeFollow s.frozen s.freezeLp }
        dwPrev := s.p[5]
        svfs := (processBlock s).svfs
        large := (recordStage (processInput s).1 (processInput s).2).large
        small := (recordStage (processInput s).1 (processInput s).2).small
        rings := (recordStage (processInput s).1 (processInput s).2).rings
        grains := (processBlock s).grains
        search := (processBlock s).search
        kernels := (processBlock s).kernels
        loopSync := (processBlock s).loopSync
        upPrev := (processBlock s).upPrev
        fbbuf := (processBlock s).fbbuf
        outbuf := (processBlock s).outbuf } := by
  obtain ⟨v, x, h1⟩ : ∃ v x, processInput s =
      ({ s with
          freezeLp := freezeFollow s.frozen s.freezeLp
          svfs := v
          drv := derived { s with freezeLp := freezeFollow s.frozen s.freezeLp } }, x) :=
    ⟨_, _, Prod.ext (processInput_eq s) rfl⟩
  have h2 (a : State) : ∃ g w k b up u, processPlay s.blockSize a x =
      ({ a with
          large := (recordStage a x).large
          small := (recordStage a x).small
          rings := (recordStage a x).rings
          grains := g
          search := w
          kernels := k
          loopSync := b
          upPrev := up }, u) := ⟨_, _, _, _, _, _, Prod.ext (processPlay_eq s.blockSize a x) rfl⟩
  have h3 (a : State) (u : Vector Frame s.blockSize) : ∃ k v f o, processEffects a u =
      { a with kernels := k, svfs := v, fbbuf := f, outbuf := o, dwPrev := a.p[5] } := ⟨_, _, _, _, processEffects_eq a u⟩
  have h : ∃ v g w k b up f o, processBlock s =
      { s with
        freezeLp := freezeFollow s.frozen s.freezeLp
        drv := derived { s with freezeLp := freezeFollow s.frozen s.freezeLp }
        dwPrev := s.p[5]
        svfs := v
        large := (recordStage (processInput s).1 (processInput s).2).large
        small := (recordStage (processInput s).1 (processInput s).2).small
        rings := (recordStage (processInput s).1 (processInput s).2).rings
        grains := g
        search := w
        kernels := k
        loopSync := b
        upPrev := up
        fbbuf := f
        outbuf := o } := by
    unfold processBlock
    rw [h1]
    dsimp only
    obtain ⟨g, w, k, b, up, u, h2⟩ := h2 _
    rw [h2]
    obtain ⟨k', v', f, o, h3⟩ := h3 _ u
    rw [h3]
    exact ⟨v', g, w, k', b, up, f, o, rfl⟩
  obtain ⟨v, g, w, k, b, up, f, o, h⟩ := h
  simp only [h]

/-- Steps 10 to 12: the output block is the crossfade of the input block and of the reverb of the block `FBBUF` keeps. -/
theorem processEffects_outbuf {n : Nat} (s : State) (u : Vector Frame n) :
    (processEffects s u).outbuf = (mixBlock s.dwPrev.toNat s.p[5].toNat s.inbuf
      (Config.revProcess s.kernels.rev s.drv.reverb s.p[7] n (blockOf n (processEffects s u).fbbuf)).2).toList := by
  obtain ⟨k1, u1, e1⟩ : ∃ k v, diffuseStage s u = ({ s with kernels := { s.kernels with diff := k } }, v) :=
    ⟨_, _, Prod.ext (diffuseStage_eq s u) rfl⟩
  obtain ⟨k2, u2, e2⟩ : ∃ k v, pitchStage { s with kernels := { s.kernels with diff := k1 } } u1 =
      ({ s with kernels := { s.kernels with diff := k1, ps := k } }, v) :=
    ⟨_, _, Prod.ext (pitchStage_eq { s with kernels := { s.kernels with diff := k1 } } u1) rfl⟩
  obtain ⟨f3, u3, e3⟩ : ∃ f v, toneStage { s with kernels := { s.kernels with diff := k1, ps := k2 } } u2 =
      ({ s with kernels := { s.kernels with diff := k1, ps := k2 }, svfs := f }, v) :=
    ⟨_, _, Prod.ext (toneStage_eq { s with kernels := { s.kernels with diff := k1, ps := k2 } } u2) rfl⟩
  simp only [processEffects, e1, e2, e3, mixStage, reverbStage, blockOf_toList]

/-- Step 12 of a `PROCESS` that passes its gate, in terms of the state it leaves. -/
theorem processBlock_outbuf (s : State) :
    (processBlock s).outbuf = (mixBlock s.dwPrev.toNat s.p[5].toNat s.inbuf
      (Config.revProcess s.kernels.rev (processBlock s).drv.reverb s.p[7] s.blockSize
        (blockOf s.blockSize (processBlock s).fbbuf)).2).toList := by
  obtain ⟨v, x, h1⟩ : ∃ v x, processInput s =
      ({ s with
          freezeLp := freezeFollow s.frozen s.freezeLp
          svfs := v
          drv := derived { s with freezeLp := freezeFollow s.frozen s.freezeLp } }, x) :=
    ⟨_, _, Prod.ext (processInput_eq s) rfl⟩
  have hd : (processBlock s).drv = derived { s with freezeLp := freezeFollow s.frozen s.freezeLp } :=
    congrArg State.drv (processBlock_eq s)
  rw [hd]
  unfold processBlock
  rw [h1]
  dsimp only
  generalize hq : processPlay s.blockSize _ x = q
  have h2 : q.1.dwPrev = s.dwPrev ∧ q.1.p = s.p ∧ q.1.inbuf = s.inbuf ∧ q.1.kernels.rev = s.kernels.rev ∧
      q.1.drv = derived { s with freezeLp := freezeFollow s.frozen s.freezeLp } := by
    subst hq
    rw [processPlay_eq]
    refine ⟨rfl, rfl, rfl, ?_, rfl⟩
    exact processPlay_rev s.blockSize _ x
  obtain ⟨a1, a2, a3, a4, a5⟩ := h2
  rw [processEffects_outbuf q.1 q.2, a1, a2, a3, a4, a5]

end Sys2Proof.Machine
end

