-- ==== Sys2Proof/Tests/Slice0.lean ====
section
/-! SUPPORT. Tests: words written out from 30_encoding.md R65 and 95_test_vectors.md 2.1, ill-formed terms, one-step tests whose
expected values are the spec's vectors (95_test_vectors.md), and for every statement with hypotheses a state that meets them
(`witness_<statement>`). -/

namespace Sys2Proof.Tests

open Sys2Proof Sys2Proof.Machine

/-! ## Words and their commands (95_test_vectors.md 2.1, 30_encoding.md R65) -/

theorem test_decode_nop : decode 0x0000000000000000 = .ok .nop := by decide
theorem test_decode_csrr : decode 0x0100000100000000 = .ok (.csrr 0x001) := by decide
theorem test_decode_arena : decode 0x0201000000010000 = .ok (.arena .small 65536) := by decide
theorem test_decode_tblinit : decode 0x030000000000BB80 = .ok (.tblinit 48000) := by decide
theorem test_decode_init : decode 0x040000000000BB80 = .ok (.init 48000) := by decide
theorem test_decode_pset : decode 0x0502F40000000000 = .ok (.pset 2 0xF400) := by decide
theorem test_decode_setmode : decode 0x0603000000000000 = .ok (.setmode 3) := by decide
theorem test_decode_setqual : decode 0x0702000000000000 = .ok (.setqual 2) := by decide
theorem test_decode_setsil : decode 0x0801000000000000 = .ok (.setsil true) := by decide
theorem test_decode_setbyp : decode 0x0901000000000000 = .ok (.setbyp true) := by decide
theorem test_decode_rstbuf : decode 0x0A00000000000000 = .ok .rstbuf := by decide
theorem test_decode_prepare : decode 0x0B00000000000000 = .ok .prepare := by decide
theorem test_decode_process : decode 0x0C00002000000000 = .ok (.process 32) := by decide
theorem test_decode_framew : decode 0x0D000005FC1803E8 = .ok (.framew 5 1000 0xFC18) := by decide
theorem test_decode_framer : decode 0x0E00001F00000000 = .ok (.framer 31) := by decide
theorem test_decode_peek : decode 0x0F01000000001234 = .ok (.peek .small 0x1234) := by decide
theorem test_decode_rbinit : decode 0x1007000100000200 = .ok (.rbinit 1 .small .mulaw8 0x100 0x200) := by decide
theorem test_decode_rbwf : decode 0x1103001000020001 = .ok (.rbwf 1 true 16 2 1) := by decide
theorem test_decode_rbrd : decode 0x1200800000000001 = .ok (.rbrd 0 1 0x8000) := by decide
theorem test_decode_svfrst : decode 0x1807000000000000 = .ok (.svfrst 7) := by decide
theorem test_decode_svfset : decode 0x1900199A00010000 = .ok (.svfset 0 6554 65536) := by decide
theorem test_decode_svfstep : decode 0x1A030000FFFFFFFF = .ok (.svfstep 3 0xFFFFFFFF) := by decide
theorem test_decode_lim : decode 0x1C000000FFFF63C0 = .ok (.lim 0xFFFF63C0) := by decide
theorem test_decode_xfade : decode 0x1D0040004E202710 = .ok (.xfade 16384 10000 20000) := by decide

/-- Reserved opcodes and words with an unused bit set are refused by name (95_test_vectors.md 2.1). -/
theorem test_decode_refusals :
    decode 0x1300000000000000 = .error (.reservedOpcode 0x13) ∧ decode 0x1B00000000000000 = .error (.reservedOpcode 0x1B) ∧
    decode 0xFFFFFFFFFFFFFFFF = .error (.reservedOpcode 0xFF) ∧ decode 0x0001000000000000 = .error (.unusedBitSet 0x00) ∧
    decode 0x0202000000000010 = .error (.unusedBitSet 0x02) ∧ decode 0x0500000000000001 = .error (.unusedBitSet 0x05) ∧
    decode 0x0802000000000000 = .error (.unusedBitSet 0x08) ∧ decode 0x0C01001000000000 = .error (.unusedBitSet 0x0C) ∧
    decode 0x1008000000000040 = .error (.unusedBitSet 0x10) ∧ decode 0x1202000000000000 = .error (.unusedBitSet 0x12) ∧
    decode 0x1800000100000000 = .error (.unusedBitSet 0x18) ∧ decode 0x1D01000000000000 = .error (.unusedBitSet 0x1D) := by
  decide

/-- A word of the opcode table presented to the reset state is the command the next step runs. -/
theorem test_withFetchWord :
    decodeTableWord 64 0x0502F40000000000 = some (.pset 2 0xF400) ∧
    step (State.reset.withFetchWord 64 0x0502F40000000000) = exec (.pset 2 0xF400) State.reset :=
  ⟨by decide, rfl⟩

/-! ## Ill-formed terms, one for each check of `WellFormed` -/

theorem test_ill_formed_csrr : (Instr.csrr 0x205).WellFormed = false ∧ (Instr.csrr 0x00F).WellFormed = false := by decide
theorem test_ill_formed_arena :
    (Instr.arena .large 0).WellFormed = false ∧ (Instr.arena .small 0x1000000).WellFormed = false := by decide
theorem test_ill_formed_tblinit : (Instr.tblinit 0).WellFormed = false := by decide
theorem test_ill_formed_init : (Instr.init 0).WellFormed = false := by decide
theorem test_ill_formed_pset : (Instr.pset 10 0).WellFormed = false := by decide
theorem test_ill_formed_setmode : (Instr.setmode 4).WellFormed = false := by decide
theorem test_ill_formed_setqual : (Instr.setqual 4).WellFormed = false := by decide
theorem test_ill_formed_process : (Instr.process 31).WellFormed = false ∧ (Instr.process 0).WellFormed = false ∧
    (Instr.process 258).WellFormed = false := by decide
theorem test_ill_formed_framew : (Instr.framew 256 0 0).WellFormed = false := by decide
theorem test_ill_formed_framer : (Instr.framer 256).WellFormed = false := by decide
theorem test_ill_formed_rbwf : (Instr.rbwf 0 true 257 2 0).WellFormed = false := by decide
theorem test_ill_formed_xfade : (Instr.xfade 32769 0 0).WellFormed = false := by decide

/-! ## Small states -/

/-- Tables valid, both arenas declared with no byte specified, `INIT` not yet run. -/
def bare : State :=
  { State.reset with
    tablesValid := true
    tblSr := 48000
    large := ⟨true, 4096, Memory.unspecified⟩
    small := ⟨true, 2048, Memory.unspecified⟩ }

/-- `bare` with instance 0 bound to the first 64 bytes of `LARGE`, all zero, no fade, the cursor at 30. -/
def ringed (enc : SampleFormat) : State :=
  { bare with
    large := ⟨true, 4096, ⟨[(0, 64)], []⟩⟩
    rings := #v[⟨true, enc, .large, 0, 64, BitVec.ofNat 24 (capacity enc 64), 30, 0, Vector.replicate 8 0⟩, Ring.unbound]
    inbuf := List.replicate 32 ⟨1000, 0xFC18⟩ }

/-- After `INIT` with a partition committed for a mode: two zeroed ring buffers of 1024 samples in stereo, one of 2048 in
mono. -/
def prepared (mono : Bool) (m : Mode) (flags : Half) : State :=
  { bare with
    inited := true
    sr := 48000
    mode := m
    prevMode := some m
    quality := if mono then 1 else 0
    p := (Vector.replicate 10 0).set 9 flags
    large := ⟨true, 4096, ⟨[(0, if mono then 4096 else 2048)], []⟩⟩
    small := ⟨true, 2048, ⟨if mono then [] else [(0, 2048)], []⟩⟩
    rings :=
      if mono then #v[⟨true, .linear16, .large, 0, 4096, 2048, 0, 0, Vector.replicate 8 0⟩, Ring.unbound]
      else #v[⟨true, .linear16, .large, 0, 2048, 1024, 0, 0, Vector.replicate 8 0⟩,
        ⟨true, .linear16, .small, 0, 2048, 1024, 0, 0, Vector.replicate 8 0⟩]
    wsSpace := if mono then .small else .large
    wsBase := if mono then 0 else 2048
    wsSize := 2048 }

/-- After `INIT`, before the first `PREPARE`. -/
def inited : State :=
  { bare with inited := true, sr := 48000, resetPending := true }

/-- `inited` on another instance of the hardware: `BLOCK_SIZE` 2, 2049 bytes of workspace for Granular, 3 candidates a `PREPARE`. -/
def small2 : State :=
  let zeros : List Frame := [⟨0, 0⟩, ⟨0, 0⟩]
  { inited with hw := ⟨0, 2049, 2048, 0, 0, 3⟩, fbbuf := zeros, inbuf := zeros, outbuf := zeros }

/-- What holds of the state after a command that takes a next state. -/
def after (i : Instr) (s : State) (f : State → Bool) : Bool :=
  match exec i s with
  | .next t => f t
  | _ => false

/-! ## One step, against the spec's vectors (95_test_vectors.md 2.2 to 2.8) -/

theorem test_nop_counts : after .nop bare (fun t => decide (t.cmdcnt = 1 ∧ t.resp = none)) = true := by decide
theorem test_csrr_status_after_reset :
    after (.csrr 0x001) State.reset (fun t => decide (t.resp = some 0)) = true := by decide
theorem test_csrr_unmapped :
    after (.csrr 0x205) bare (fun t => decide (t.faultCause = 3 ∧ t.faultInfo = 0x205 ∧ t.cmdcnt = 0)) = true := by decide
theorem test_arena_declares :
    after (.arena .small 65536) State.reset (fun t => decide (t.small.size = 65536 ∧ t.status = 0x200)) = true := by decide
theorem test_tblinit_once :
    after (.tblinit 48000) bare (fun t => decide (t.faultCause = 2 ∧ t.faultInfo = 0)) = true := by decide
theorem test_tblinit_zero_rate :
    after (.tblinit 0) State.reset (fun t => decide (t.faultCause = 3 ∧ t.faultInfo = 0)) = true := by decide
theorem test_init_status : after (.init 48000) bare (fun t => decide (t.status = 0x307 ∧ t.sr = 48000)) = true := by decide
theorem test_pset_clamps_a_unit :
    after (.pset 0 40000) State.reset (fun t => decide (t.reg? 0x020 = some 0x8000)) = true := by decide
theorem test_pset_clamps_the_pitch :
    after (.pset 2 0xB1E0) State.reset (fun t => decide (t.p[2] = 0xD000)) = true := by decide
theorem test_setmode_writes : after (.setmode 3) bare (fun t => decide (t.mode = .spectral)) = true := by decide
theorem test_setmode_refuses :
    after (.setmode 4) bare (fun t => decide (t.faultCause = 3 ∧ t.faultInfo = 4)) = true := by decide
theorem test_setqual_pends :
    after (.setqual 2) bare (fun t => t.resetPending && decide (t.quality = 2)) = true := by decide
theorem test_setsil_writes : after (.setsil true) bare (fun t => t.silence && !t.bypass) = true := by decide
theorem test_setbyp_writes : after (.setbyp true) bare (fun t => t.bypass && !t.silence) = true := by decide
theorem test_rstbuf_pends : after .rstbuf bare (fun t => t.resetPending) = true := by decide
theorem test_prepare_commits :
    after .prepare inited (fun t => decide (t.prevMode = some .granular) && !t.resetPending && decide (t.rings[0].n = 1024)
      && decide (t.wsBase = 2048 ∧ t.wsSize = 2048)) = true := by decide
theorem test_process_size :
    after (.process 16) inited (fun t => decide (t.faultCause = 3 ∧ t.faultInfo = 16)) = true := by decide
theorem test_process_silent_before_prepare :
    after (.process 32) { inited with outbuf := List.replicate 32 ⟨1, 1⟩ }
      (fun t => decide (t.outbuf[31]? = some Frame.zero)) = true := by decide
/-- An instance with `BLOCK_SIZE` 2: `PROCESS 2` runs, `PROCESS 32` and `FRAMEW 2` are refused, and the register reads
2 (00_scope.md R8). -/
theorem test_block_size_two :
    after (.process 2) small2 (fun t => decide (t.fault = false ∧ t.outbuf[1]? = some Frame.zero)) = true ∧
    after (.process 32) small2 (fun t => decide (t.faultCause = 3 ∧ t.faultInfo = 32)) = true ∧
    after (.framew 2 1 1) small2 (fun t => decide (t.faultCause = 3 ∧ t.faultInfo = 2)) = true ∧
    after (.csrr 0x009) small2 (fun t => decide (t.resp = some 2)) = true := by decide

/-- `PREPARE` raises `ARENA` when the workspace is smaller than the mode's `WS_REQ`, here 2049 of 2048 bytes (20_memory.md R50). -/
theorem test_workspace_too_small :
    after .prepare small2 (fun t => decide (t.faultCause = 5)) = true ∧
    after .prepare { small2 with mode := .stretch } (fun t => decide (t.fault = false ∧ t.prevMode = some .stretch)) = true := by
  decide

theorem test_framew_writes :
    after (.framew 31 1000 0xFC18) bare (fun t => decide (t.inbuf[31]? = some ⟨1000, 0xFC18⟩ ∧ t.inbuf[30]? = some Frame.zero)) = true := by
  decide
theorem test_framer_packs :
    after (.framer 31) { bare with outbuf := List.replicate 32 ⟨0x03E8, 0xFC18⟩ }
      (fun t => decide (t.resp = some 0xFC1803E8)) = true := by decide
theorem test_peek_little_endian :
    after (.peek .large 1) { bare with large := ⟨true, 256, ⟨[(0, 4)], [(0, 0x90), (1, 0x01)]⟩⟩ }
      (fun t => decide (t.resp = some 1)) = true := by decide
theorem test_peek_range :
    after (.peek .large 4096) bare (fun t => decide (t.faultCause = 3 ∧ t.faultInfo = 4096)) = true := by decide
theorem test_rbinit_seven_samples :
    after (.rbinit 0 .large .linear16 0 14) bare (fun t => decide (t.faultCause = 5 ∧ t.faultInfo = 0)) = true := by decide
theorem test_rbinit_eight_samples :
    after (.rbinit 0 .large .linear16 0 16) bare (fun t => decide (t.rings[0].n = 8 ∧ t.reg? 0x040 = some 1)) = true := by decide
theorem test_rbwf_wraps :
    after (.rbwf 0 true 4 2 1) (ringed .linear16) (fun t => decide (t.rings[0].wcur = 2 ∧ t.byte? .large 61 = some 0xFC
      ∧ t.byte? .large 2 = some 0x18 ∧ t.rings[0].tail[1] = 0xFC18 ∧ t.byte? .large 4 = some 0)) = true := by decide
theorem test_rbwf_last_word :
    after (.rbwf 0 true 33 2 0) (ringed .linear16) (fun t => decide (t.faultCause = 3 ∧ t.faultInfo = 64)) = true := by decide
theorem test_rbrd_half_way :
    after (.rbrd 0 1 0x8000)
      { ringed .linear16 with
        large := ⟨true, 4096, ⟨[(0, 64)], [(56, 0x2C), (57, 0x01), (58, 0x90), (59, 0x01)]⟩⟩ }
      (fun t => decide (t.resp = some 350)) = true := by decide
theorem test_rbrd_unbound :
    after (.rbrd 1 0 0) bare (fun t => decide (t.faultCause = 4 ∧ t.faultInfo = 1)) = true := by decide
theorem test_svfset_values :
    after (.svfset 1 0xFFFF 65536) bare
      (fun t => decide (t.svfs[1].g = 269617 ∧ t.svfs[1].r = 65536 ∧ t.svfs[1].h = 2973 ∧ t.svfs[1].f = 32702)) = true := by
  decide
theorem test_svfstep_first :
    after (.svfstep 0 10000) { bare with svfs := Vector.replicate 8 ⟨21293, 65536, 45814, 0, 0, 0, 0, 0, 0, 6554, 65536⟩ }
      (fun t => decide (t.svfs[0].lp = 737 ∧ t.svfs[0].hp = 6990 ∧ t.svfs[0].bp = 2271 ∧ t.svfs[0].notch = 7728 ∧
        t.svfs[0].s1 = 1162906 ∧ t.svfs[0].s2 = 377834)) = true := by decide
theorem test_svfstep_negative :
    after (.svfstep 0 0xFFFFFFFF) { bare with svfs := Vector.replicate 8 ⟨21293, 65536, 45814, 0, 0, 0, 0, 0, 0, 6554, 65536⟩ }
      (fun t => decide (t.reg? 0x083 = some 0xFFFFFF8A ∧ t.reg? 0x084 = some 0xFFFFFFFF ∧ t.svfs[0].s2.toInt = -40)) = true := by
  decide
theorem test_svfrst_keeps_coefficients :
    after (.svfrst 0) { bare with svfs := Vector.replicate 8 ⟨21293, 65536, 45814, 5, 6, 7, 8, 9, 10, 6554, 65536⟩ }
      (fun t => decide (t.svfs[0] = ⟨21293, 65536, 45814, 0, 0, 0, 0, 0, 0, 6554, 65536⟩ ∧ t.svfs[1].s1 = 5)) = true := by decide
theorem test_lim_minus_40000 : after (.lim 0xFFFF63C0) bare (fun t => decide (t.resp = some 0xFFFF863D)) = true := by decide
theorem test_lim_before_tblinit :
    after (.lim 0) State.reset (fun t => decide (t.faultCause = 2 ∧ t.faultInfo = 0)) = true := by decide
theorem test_xfade_middle : after (.xfade 8192 1000 0xFC18) bare (fun t => decide (t.resp = some 344)) = true := by decide
theorem test_xfade_clips : after (.xfade 16384 0x8000 0x8000) bare (fun t => decide (t.resp = some 0xFFFF8000)) = true := by
  decide

/-- The tables and the generator (95_test_vectors.md 2.2, V-GR-1). -/
theorem test_tables :
    mulawEncode (-1000) = 0xB1 ∧ mulawDecode 0xB1 = -988 ∧ pitchRatio 3071 = 131041 ∧ pitchRatio (-1) = 65521 ∧
    windowAt 33000 = 32750 ∧ xfLookup tblXfIn 2047 = 1635 ∧ xfLookup tblXfOut 30720 = 1636 ∧ grainSize 32767 = 32762 ∧
    prngNext 1 = 0x3C88596C ∧ prngDraw 0x3C88596C = 15496 := by decide

/-- The derived parameters (V-DRV-1, second row of 95_test_vectors.md 2.7). -/
theorem test_derived :
    deriveOverlap 8192 = 90112 ∧ deriveShape 8192 = 10922 ∧ deriveRefresh 8192 = 8438 ∧ deriveWarp 8192 = 14336 ∧
    derivePhrand 8192 = 6963 ∧ deriveDiff .granular 28672 0 = 16384 ∧ deriveReverb 16384 16384 32768 = 23757 := by decide

/-- A grain spawned from V-GR-6's parameters (95_test_vectors.md 2.6). -/
theorem test_spawned_grain :
    spawnedGrain
        { bare with
          p := ((Vector.replicate 10 0).set 0 32768).set 1 8192 |>.set 2 3072
          rings := #v[⟨true, .linear16, .large, 0, 0, 32768, 32, 0, Vector.replicate 8 0⟩, Ring.unbound] } 0 =
      ⟨true, 1570, 0, 0, 512, 131072, 32768, 32768⟩ := by decide

/-! ## The invariant of a run holds of `prepared` -/

/-- A byte of a zero-filled range `[0, hi)` and of nothing else. -/
theorem zeroed_byte (hi x : Nat) : (⟨[(0, hi)], []⟩ : Memory).get? x = if x < hi then some 0 else none := by
  simp [Memory.get?, cellLookup, Memory.unlisted, rangesMem]

/-- No byte of an unspecified memory has a value. -/
theorem unspecified_byte (x : Nat) : (⟨[], []⟩ : Memory).get? x = none := by
  simp [Memory.get?, cellLookup, Memory.unlisted, rangesMem]

theorem bare_svfOk (i : Fin 8) : SvfOk bare.svfs[i] := by
  fin_cases i <;> exact ⟨by decide, by decide, by decide, by decide, by decide⟩

theorem bare_grainOk (k : Fin Config.maxGrains) : GrainOk bare.grains.slots[k] := by
  intro h; fin_cases k <;> exact absurd h (by decide)

theorem bare_searchOk : SearchOk bare.search :=
  ⟨fun h => (nomatch h.1), Nat.le_refl _, fun h => (nomatch h), by decide⟩

/-- A 16-bit instance over a zero-filled arena meets the instance's invariants. -/
theorem zeroed_boundOk (s : State) (i : Fin 2) (sp : Space) (size n hi : Nat) (hs : size < 2 ^ 24) (hn : 8 ≤ n) (h2 : size = 2 * n)
    (hr : s.rings[i] = ⟨true, .linear16, sp, 0, BitVec.ofNat 24 size, BitVec.ofNat 24 n, 0, 0, Vector.replicate 8 0⟩)
    (hd : (s.arena sp).declared = true) (hin : size ≤ (s.arena sp).size.toNat)
    (hb : (s.arena sp).mem = ⟨[(0, hi)], []⟩) (hh : size ≤ hi) : BoundOk s i := by
  have hsize : (BitVec.ofNat 24 size).toNat = size := by simp; omega
  have hnn : (BitVec.ofNat 24 n).toNat = n := by simp; omega
  constructor
  · rw [hr]; exact hd
  · simp only [hr, hsize]; simpa using hin
  · simp only [hr, hsize, hnn, capacity]; omega
  · simp only [hr, hnn, Config.tail]; omega
  · simp only [hr, hnn]; simp; omega
  · simp [hr]
  · intro _; simp only [hr, hsize]; simp; omega
  · rintro x ⟨-, -, -, h⟩
    simp only [hr, hsize] at h ⊢
    simp only [State.byte?, hb, zeroed_byte]
    simp at h
    rw [if_pos (by omega)]; rfl
  · intro j
    have hj : j.val < 8 := j.isLt
    simp only [rbLoad, hr, sampleAddress, sampleWidth, State.loadHalf, State.loadByte, State.byte?, hb, zeroed_byte]
    rw [if_pos (by simp; omega), if_pos (by simp; omega)]
    simp

theorem prepared_format (mono : Bool) (m : Mode) (flags : Half) : (prepared mono m flags).format = .linear16 := by
  cases mono <;> simp [State.format, State.lofi, prepared]

theorem prepared_mono (mono : Bool) (m : Mode) (flags : Half) : (prepared mono m flags).mono = mono := by
  cases mono <;> simp [State.mono, prepared]

theorem prepared_inv (mono : Bool) (m : Mode) (flags : Half) (hf : flags.toNat ≤ 7) : (prepared mono m flags).Inv := by
  constructor
  · refine ⟨?_, ?_, fun x hx => ?_⟩
    · cases mono
      · show (⟨[(0, 2048)], []⟩ : Memory).wf = true; decide
      · show (⟨[(0, 4096)], []⟩ : Memory).wf = true; decide
    · exact iff_of_true rfl (by show (4096 : BitVec 24) ≠ 0; decide)
    · cases mono <;> simp [prepared, zeroed_byte] at hx ⊢ <;> omega
  · refine ⟨?_, ?_, fun x hx => ?_⟩
    · cases mono
      · show (⟨[(0, 2048)], []⟩ : Memory).wf = true; decide
      · show (⟨[], []⟩ : Memory).wf = true; decide
    · exact iff_of_true rfl (by show (2048 : BitVec 24) ≠ 0; decide)
    · cases mono
      · simp [prepared, zeroed_byte] at hx ⊢; omega
      · simp [prepared, unspecified_byte] at hx
  · exact ⟨fun _ => (show (48000 : Word) ≠ 0 by decide), fun _ => ⟨rfl, rfl, rfl, (show (48000 : Word) ≠ 0 by decide)⟩,
      fun _ => ⟨rfl, rfl, rfl, rfl⟩, fun h => nomatch h⟩
  · have hp : ∀ k : Fin 10, k ≠ 9 → (prepared mono m flags).p[k] = 0 := by
      intro k hk
      fin_cases k <;> first | rfl | exact absurd rfl hk
    refine ⟨fun k _ h9 => ?_, ?_, hf, Nat.zero_le _, Nat.zero_le _⟩
    · rw [hp k h9]; decide
    · rw [show (prepared mono m flags).p[2] = 0 from rfl]; decide
  · exact Or.inl rfl
  · exact bare_searchOk
  · exact bare_svfOk
  · exact bare_grainOk
  · refine ⟨fun i hi => ?_, fun i hi => ?_, fun sp x => ?_⟩
    · cases mono
      · fin_cases i
        · exact zeroed_boundOk _ 0 .large 2048 1024 2048 (by decide) (by decide) rfl rfl rfl (by show 2048 ≤ (4096 : BitVec 24).toNat; decide) rfl (Nat.le_refl _)
        · exact zeroed_boundOk _ 1 .small 2048 1024 2048 (by decide) (by decide) rfl rfl rfl (by show 2048 ≤ (2048 : BitVec 24).toNat; decide) rfl (Nat.le_refl _)
      · fin_cases i
        · exact zeroed_boundOk _ 0 .large 4096 2048 4096 (by decide) (by decide) rfl rfl rfl (by show 4096 ≤ (4096 : BitVec 24).toNat; decide) rfl (Nat.le_refl _)
        · exact nomatch hi
    · cases mono
      · fin_cases i <;> exact nomatch hi
      · fin_cases i
        · exact nomatch hi
        · rfl
    · rintro ⟨⟨-, h1, -, -⟩, ⟨h2, h3, -, -⟩⟩
      cases mono
      · exact nomatch h1.trans h3.symm
      · exact nomatch h2
  · have hb : ∀ x, (prepared mono m flags).byte? (prepared mono m flags).wsSpace x =
        if mono then none else if x < 2048 then some 0 else none := by
      intro x; cases mono
      · exact zeroed_byte 2048 x
      · exact unspecified_byte x
    refine ⟨fun h => (nomatch h), fun _ _ h => (nomatch h), fun _ _ => ?_, fun _ _ h => ?_, fun _ _ h => ?_, fun _ _ => ⟨?_, ?_⟩⟩
    · rw [prepared_format]
      cases mono
      · exact ⟨rfl, rfl, (show 1024 ≤ (1024 : BitVec 24).toNat by decide)⟩
      · exact ⟨rfl, rfl, (show 1024 ≤ (2048 : BitVec 24).toNat by decide)⟩
    · rw [prepared_mono] at h
      rw [prepared_format]
      subst h; exact ⟨rfl, rfl, rfl⟩
    · rw [prepared_mono] at h
      subst h; rfl
    · cases mono
      · show (2048 : BitVec 24).toNat + (2048 : BitVec 24).toNat ≤ (4096 : BitVec 24).toNat; decide
      · show (0 : BitVec 24).toNat + (2048 : BitVec 24).toNat ≤ (2048 : BitVec 24).toNat; decide
    · intro x h1 _
      rw [hb]
      cases mono
      · have h3 : 2048 ≤ x := h1
        refine ⟨by simp; omega, fun i => ?_⟩
        rintro ⟨-, h4, -, h5⟩
        fin_cases i
        · have h6 : x < 0 + 2048 := h5
          omega
        · exact nomatch h4
      · refine ⟨rfl, fun i => ?_⟩
        rintro ⟨h3, h4, -, -⟩
        fin_cases i
        · exact nomatch h4
        · exact nomatch h3
  · exact ⟨rfl, rfl, rfl⟩

/-! ## Witnesses: states and operands that meet every hypothesis of a statement -/

theorem witness_EncodeOfDecode : decode 0x1D0040004E202710 = .ok (.xfade 16384 10000 20000) := by decide

/-- The reserved opcodes at the ends of their ranges, a word of a row, a word of none. -/
theorem witness_LegalWordsMatchARow :
    (∃ i, decode 0x0B00000000000000 = .ok i) ∧
    ((0x1300000000000000 : Cmd).extractLsb' 56 8).toNat = 0x13 ∧ ((0x1700000000000000 : Cmd).extractLsb' 56 8).toNat = 0x17 ∧
    ((0x1B00000000000000 : Cmd).extractLsb' 56 8).toNat = 0x1B ∧ ((0x1E00000000000000 : Cmd).extractLsb' 56 8).toNat = 0x1E ∧
    ((0xFFFFFFFFFFFFFFFF : Cmd).extractLsb' 56 8).toNat = 0xFF ∧
    bare.fault = false ∧ ¬ ∃ row ∈ commandRows, (0x0001000000000000 : Cmd) &&& row.mask = row.pattern :=
  ⟨⟨.prepare, by decide⟩, by decide, by decide, by decide, by decide, by decide, rfl, by decide⟩

theorem witness_StepRunsTheDecodedCommand :
    ((bare.present 0x0B00000000000000).inputs = .command 0x0B00000000000000 :: [] ∧ decode 0x0B00000000000000 = .ok .prepare) ∧
    ((bare.present 0x1300000000000000).inputs = .command 0x1300000000000000 :: [] ∧
      decode 0x1300000000000000 = .error (.reservedOpcode 0x13)) ∧
    { bare with inputs := [.reset, .reset] }.inputs = .reset :: [.reset] ∧ bare.inputs = [] :=
  ⟨⟨rfl, by decide⟩, ⟨rfl, by decide⟩, rfl, rfl⟩

theorem witness_ResetRegisterValues :
    { bare with inputs := [.reset] }.inputs = .reset :: [] ∧ mappedAddress 0x000 = true ∧ mappedAddress 0x003 = true ∧
    mappedAddress 0x0FC = true ∧ mappedAddress 0x204 = true := ⟨rfl, by decide, by decide, by decide, by decide⟩

/-- A word presented at the ports does not touch the invariant. -/
theorem present_inv {s : State} (h : s.Inv) (w : Cmd) : (s.present w).Inv := by
  obtain ⟨h1, h2, ⟨a, b, c, d⟩, ⟨e, f, g, i, j⟩, h5, ⟨k, l, m, n⟩, h7, h8, ⟨o, p, q⟩, ⟨u, v, w', x, y, z⟩, h11⟩ := h
  exact ⟨h1, h2, ⟨a, b, c, d⟩, ⟨e, f, g, i, j⟩, h5, ⟨k, l, m, n⟩, h7, h8,
    ⟨fun i hi => let ⟨a, b, c, d, e, f, g, h, j⟩ := o i hi; ⟨a, b, c, d, e, f, g, h, j⟩, p, q⟩, ⟨u, v, w', x, y, z⟩, h11⟩

/-- A state of a run in each mode, stereo or mono, with a `PROCESS` next at its ports; the same state meets the hypotheses of the
statements about one part of the invariant. -/
theorem witness_EveryStepKeepsTheInvariant (mono : Bool) (m : Mode) :
    ((prepared mono m 7).present 0x0C00002000000000).Inv ∧
      ∃ t, step ((prepared mono m 7).present 0x0C00002000000000) = .next t :=
  ⟨present_inv (prepared_inv mono m 7 (by decide)) _, _, rfl⟩

/-- The hypotheses of every `StepKeeps` statement, met by that state (`GrainOk` and `SvfOk` in each slot and instance). -/
theorem witness_StepKeeps (mono : Bool) (m : Mode) :
    ∃ s t, step s = .next t ∧ s.Inv ∧ (s.large.mem.wf = true ∧ s.small.mem.wf = true) ∧ ParamsOk s ∧ DerivedOk s.drv ∧
      SearchOk s.search ∧ (∀ i : Fin 8, SvfOk s.svfs[i]) ∧ ∀ k : Fin Config.maxGrains, GrainOk s.grains.slots[k] :=
  have h := (witness_EveryStepKeepsTheInvariant mono m).1
  ⟨_, _, rfl, h, ⟨h.large.canonical, h.small.canonical⟩, h.params, h.derived, h.search, h.svfs, h.grains⟩

/-- Two memories written in a different order, canonical and equal at every address. -/
theorem witness_CanonicalMemoriesAreEqual :
    let m := (Memory.unspecified.put 7 5).put 8 0
    let n := (Memory.unspecified.zeroFill 7 2).put 7 5
    m.wf = true ∧ n.wf = true ∧ ∀ a, m.get? a = n.get? a :=
  ⟨by decide, by decide, fun a => by
    rw [show (Memory.unspecified.put 7 5).put 8 0 = (Memory.unspecified.zeroFill 7 2).put 7 5 by decide]⟩

/-- Each life-cycle bit kept and each one set. -/
theorem witness_LifeCycleBitsAreOnlySet :
    (∃ t, exec (.tblinit 48000) State.reset = .next t ∧ State.reset.tablesValid = false ∧ t.tablesValid = true) ∧
    (∃ t, exec (.init 48000) bare = .next t ∧ bare.inited = false ∧ t.inited = true ∧ bare.tablesValid = true ∧
      (bare.arena .large).declared = true) ∧
    (∃ t, exec (.arena .small 1) State.reset = .next t ∧ (State.reset.arena .small).declared = false ∧
      (t.arena .small).declared = true) ∧
    ∃ t, exec .nop { inited with fault := true } = .next t ∧ inited.inited = true :=
  ⟨⟨_, rfl, rfl, rfl⟩, ⟨_, rfl, rfl, rfl, rfl, rfl⟩, ⟨_, rfl, rfl, rfl⟩, ⟨_, rfl, rfl⟩⟩

/-- A completing command of each case, a fault, both ways into `Stable`, and an unbypassed `PROCESS` outside it. -/
theorem witness_ModeMachineEvents :
    (∃ t, exec (.init 1) bare = .next t ∧ bare.fault = false ∧ t.fault = false) ∧
    (∃ t, exec (.setmode 3) bare = .next t ∧ t.fault = false) ∧ (∃ t, exec (.setqual 3) bare = .next t ∧ t.fault = false) ∧
    (∃ t, exec (.setqual 0) bare = .next t ∧ t.fault = false) ∧ (∃ t, exec .rstbuf bare = .next t ∧ t.fault = false) ∧
    (∃ t, exec .prepare inited = .next t ∧ t.fault = false ∧ ¬ stable inited ∧ stable t) ∧
    (∃ t, exec .nop bare = .next t ∧ t.fault = false) ∧ (∃ t, exec .prepare bare = .next t ∧ t.fault = true) ∧
    (∃ t, exec (.setmode 0) { prepared true .granular 0 with mode := .spectral } = .next t ∧
      ¬ stable { prepared true .granular 0 with mode := .spectral } ∧ stable t) ∧
    ∃ t, exec (.process 32) inited = .next t ∧ inited.bypass = false ∧ t.fault = false :=
  ⟨⟨_, rfl, rfl, rfl⟩, ⟨_, rfl, rfl⟩, ⟨_, rfl, rfl⟩, ⟨_, rfl, rfl⟩, ⟨_, rfl, rfl⟩,
    ⟨_, rfl, rfl, fun h => (nomatch h.1), rfl, rfl⟩, ⟨_, rfl, rfl⟩, ⟨_, rfl, rfl⟩,
    ⟨_, rfl, fun h => (nomatch h.2), rfl, rfl⟩, ⟨_, rfl, rfl, rfl⟩⟩

/-- A byte changed by a declaration, by a ring buffer init and by an open write. -/
theorem witness_ArenaBytesChangeOnlyBy :
    (∃ t, exec (.arena .large 64) (ringed .mulaw8) = .next t ∧ t.byte? .large 0 ≠ (ringed .mulaw8).byte? .large 0) ∧
    (∃ t, exec (.rbinit 0 .small .mulaw8 8 8) bare = .next t ∧ t.byte? .small 15 ≠ bare.byte? .small 15) ∧
    ∃ t, exec (.rbwf 0 true 1 1 0) (ringed .mulaw8) = .next t ∧ t.byte? .large 30 ≠ (ringed .mulaw8).byte? .large 30 :=
  ⟨⟨_, rfl, by decide⟩, ⟨_, rfl, by decide⟩, ⟨_, rfl, by decide⟩⟩

/-- Each register of the statement changed by a command that may change it. -/
theorem witness_RegistersChangeOnlyByTheirCommands :
    (∃ t, exec (.framew 31 1 2) bare = .next t ∧ t.inbuf ≠ bare.inbuf) ∧
    (∃ t, exec (.process 32) { inited with outbuf := List.replicate 32 ⟨1, 1⟩ } = .next t ∧
      t.outbuf ≠ List.replicate 32 ⟨1, 1⟩) ∧
    (∃ t, exec (.tblinit 1) State.reset = .next t ∧ t.tblSr ≠ State.reset.tblSr ∧ t.tablesValid ≠ State.reset.tablesValid ∧
      State.reset.fault = false ∧ t.fault = false) ∧
    (∃ t, exec (.init 1) { bare with prevMode := some .granular, drv := ⟨1, 0, false, 0, 0, 0, 0, 0, 0⟩, loopSync := true } = .next t ∧
      t.inited ≠ bare.inited ∧ t.sr ≠ bare.sr ∧ t.prevMode ≠ some .granular ∧ t.drv ≠ ⟨1, 0, false, 0, 0, 0, 0, 0, 0⟩ ∧ t.loopSync ≠ true) ∧
    (∃ t, exec (.setqual 1) bare = .next t ∧ t.quality ≠ bare.quality) ∧
    (∃ t, exec (.setbyp true) bare = .next t ∧ t.bypass ≠ bare.bypass) ∧
    (∃ t, exec (.setsil true) bare = .next t ∧ t.silence ≠ bare.silence) ∧
    (∃ t, exec (.pset 9 1) bare = .next t ∧ t.p ≠ bare.p) ∧
    (∃ t, exec .prepare inited = .next t ∧ t.wsSize ≠ inited.wsSize ∧ t.rings[0] ≠ inited.rings[0]) ∧
    (∃ t, exec (.svfset 7 1 65536) bare = .next t ∧ t.svfs[7] ≠ bare.svfs[7]) ∧
    (∃ t, exec (.rbinit 1 .small .mulaw8 8 8) bare = .next t ∧ t.rings[1] ≠ bare.rings[1]) ∧
    (∃ t, exec (.setmode 3) bare = .next t ∧ t.mode ≠ bare.mode) ∧
    (∃ t, exec .rstbuf bare = .next t ∧ t.resetPending ≠ bare.resetPending) ∧
    (∃ t, exec (.arena .large 1) bare = .next t ∧ (t.arena .large).size ≠ (bare.arena .large).size) ∧
    (∃ t, exec .prepare bare = .next t ∧ t.fault ≠ bare.fault ∧ t.faultCause ≠ bare.faultCause) ∧
    ∃ t, exec (.peek .large 0) bare = .next t ∧ t.draws ≠ bare.draws :=
  ⟨⟨_, rfl, by decide⟩, ⟨_, rfl, by decide⟩, ⟨_, rfl, by decide, by decide, rfl, rfl⟩,
    ⟨_, rfl, by decide, by decide, by decide, by decide, by decide⟩,
    ⟨_, rfl, by decide⟩, ⟨_, rfl, by decide⟩, ⟨_, rfl, by decide⟩, ⟨_, rfl, by decide⟩, ⟨_, rfl, by decide, by decide⟩,
    ⟨_, rfl, by decide⟩, ⟨_, rfl, by decide⟩, ⟨_, rfl, by decide⟩, ⟨_, rfl, by decide⟩, ⟨_, rfl, by decide⟩,
    ⟨_, rfl, by decide, by decide⟩, ⟨_, rfl, by decide⟩⟩

/-- An illegal word; a legal one that raises each of the other four faults; a command that raises none. -/
theorem witness_TheFirstFaultIsRaised :
    bare.fault = false ∧ legalWord 0x0C01002000000000 = false ∧
    (decode 0x0C00001000000000 = .ok (.process 16) ∧ Raises bare (.process 16) .sequence 0) ∧
    (decode 0x0503000000000000 ≠ .ok (.pset 10 0) ∧ decode 0x050A000000000000 = .ok (.pset 10 0) ∧
      Raises bare (.pset 10 0) .operand 10) ∧
    (decode 0x1103000400020000 = .ok (.rbwf 1 true 4 2 0) ∧ Raises bare (.rbwf 1 true 4 2 0) .unbound 1) ∧
    (decode 0x100000000000000E = .ok (.rbinit 0 .large .linear16 0 14) ∧
      Raises bare (.rbinit 0 .large .linear16 0 14) .arena 0) ∧
    decode 0x0900000000000000 = .ok (.setbyp false) ∧ noFault bare (.setbyp false) :=
  ⟨rfl, by decide, ⟨by decide, .sequence rfl⟩, ⟨by decide, by decide, .operand 10 rfl rfl⟩,
    ⟨by decide, .unbound 1 rfl rfl rfl⟩,
    ⟨by decide, .arena rfl rfl rfl (Or.inr (Or.inr (Or.inl (by decide))))⟩, by decide, rfl, rfl, rfl, fun h => h⟩

/-- A fault of each cause that a decoded command can raise. -/
theorem witness_TakingAFaultWritesFiveRegisters :
    bare.fault = false ∧ Raises bare .prepare .sequence 0 ∧ Raises bare (.framew 32 0 0) .operand 32 ∧
    Raises bare (.rbrd 0 0 0) .unbound 0 ∧ inited.fault = false ∧
    Raises { inited with small := ⟨true, 2, Memory.unspecified⟩ } .prepare .arena 0 :=
  ⟨rfl, .sequence rfl, .operand 32 rfl rfl, .unbound 0 rfl rfl rfl, rfl,
    .arena rfl rfl rfl ⟨Or.inl rfl, Or.inr (Or.inl (by decide))⟩⟩

/-- In the faulted state: `CSRR` of the first and the last mapped address, of the addresses next to them, another command, and a
reset. -/
theorem witness_TheFaultedStateIsSticky :
    (bare.faulted .sequence 0 0).fault = true ∧
    ((0x0100000000000000 : Cmd) &&& 0xFFFF0000FFFFFFFF = 0x0100000000000000 ∧
      mappedAddress ((0x0100000000000000 : Cmd).extractLsb' 32 16).toNat = true) ∧
    ((0x0100020400000000 : Cmd) &&& 0xFFFF0000FFFFFFFF = 0x0100000000000000 ∧
      mappedAddress ((0x0100020400000000 : Cmd).extractLsb' 32 16).toNat = true) ∧
    (¬((0x0100020500000000 : Cmd) &&& 0xFFFF0000FFFFFFFF = 0x0100000000000000 ∧
      mappedAddress ((0x0100020500000000 : Cmd).extractLsb' 32 16).toNat = true)) ∧
    (¬((0x0B00000000000000 : Cmd) &&& 0xFFFF0000FFFFFFFF = 0x0100000000000000 ∧
      mappedAddress ((0x0B00000000000000 : Cmd).extractLsb' 32 16).toNat = true)) ∧
    ∃ t, step { bare.faulted .sequence 0 0 with inputs := [.reset] } = .next t ∧ t.fault = false :=
  ⟨rfl, by decide, by decide, by decide, by decide, _, rfl, rfl⟩

/-- A command that responds, one that does not, and one that responds but faults. -/
theorem witness_SixCommandsRespond :
    bare.fault = false ∧ (∃ t, exec (.lim 1) bare = .next t ∧ t.resp.isSome = true) ∧
    (∃ t, exec .nop bare = .next t ∧ t.resp.isSome = false) ∧
    ∃ t, exec (.csrr 0x205) bare = .next t ∧ t.resp.isSome = false ∧ responds (.csrr 0x205) = true :=
  ⟨rfl, ⟨_, rfl, rfl⟩, ⟨_, rfl, rfl⟩, ⟨_, rfl, rfl, rfl⟩⟩

theorem witness_SettersWriteTheirRegisterOnly :
    State.reset.fault = false ∧ (3 : BitVec 8).toNat = Mode.spectral.code ∧ (0 : BitVec 8).toNat = Mode.granular.code ∧
    (3 : BitVec 8).toNat ≤ 3 ∧ (1 : BitVec 32) ≠ 0 ∧ State.reset.tablesValid = false :=
  ⟨rfl, rfl, rfl, by decide, by decide, rfl⟩

theorem witness_CsrrRespondsWithTheRegister :
    bare.fault = false ∧ mappedAddress (0x204 : BitVec 16).toNat = true ∧ mappedAddress (0 : BitVec 16).toNat = true ∧
    mappedAddress (0x18F : BitVec 16).toNat = true := by decide

/-- The smallest and the largest size, with an instance bound in the arena and one that is not. -/
theorem witness_ArenaDeclares :
    (ringed .linear16).fault = false ∧ (ringed .linear16).inited = false ∧
    ((1 : BitVec 32) ≠ 0 ∧ (1 : BitVec 32).toNat < 2 ^ 24) ∧
    ((0xFFFFFF : BitVec 32) ≠ 0 ∧ (0xFFFFFF : BitVec 32).toNat < 2 ^ 24) ∧
    (ringed .linear16).rings[0].bound = true ∧ (ringed .linear16).rings[0].space = .large ∧ Space.small ≠ .large :=
  ⟨rfl, rfl, by decide, by decide, rfl, rfl, by decide⟩

theorem witness_InitLeavesTheListedState :
    bare.fault = false ∧ bare.tablesValid = true ∧ bare.inited = false ∧ bare.large.declared = true ∧
    bare.small.declared = true ∧ (1 : BitVec 32) ≠ 0 := ⟨rfl, rfl, rfl, rfl, rfl, by decide⟩

/-- Index 0, 2 and 9, each the register of one clause, with another register beside it. -/
theorem witness_PsetClampsAndStores :
    bare.fault = false ∧ (0 : BitVec 8).toNat ≤ 9 ∧ (2 : BitVec 8).toNat ≤ 9 ∧ (9 : BitVec 8).toNat ≤ 9 ∧
    ((2 : Fin 10).val = (2 : BitVec 8).toNat) ∧ ((9 : Fin 10).val = (9 : BitVec 8).toNat) ∧
    ((0 : Fin 10).val = (0 : BitVec 8).toNat ∧ (0 : Fin 10) ≠ 2 ∧ (0 : Fin 10) ≠ 9) ∧
    (8 : Fin 10).val ≠ (9 : BitVec 8).toNat := by decide

/-- The first and the last frame of `BLOCK_SIZE` 32, and the last of 256. -/
theorem witness_FrameCommandsMoveOneFrame :
    (bare.fault = false ∧ BuffersOk bare) ∧ (31 : BitVec 16).toNat < bare.blockSize ∧ (0 : BitVec 16).toNat < bare.blockSize ∧
    let s := State.resetFor ⟨127, 0, 0, 0, 0, 8⟩
    s.fault = false ∧ BuffersOk s ∧ (255 : BitVec 16).toNat < s.blockSize :=
  ⟨⟨rfl, rfl, rfl, rfl⟩, by decide, by decide, rfl, ⟨List.length_replicate, List.length_replicate, List.length_replicate⟩, by decide⟩

/-- The last byte of an arena, unspecified, and a specified byte. -/
theorem witness_PeekReadsOneByte :
    (ringed .linear16).fault = false ∧ ((ringed .linear16).arena .large).declared = true ∧
    ((4095 : BitVec 32).toNat < ((ringed .linear16).arena .large).size.toNat ∧
      (ringed .linear16).byte? .large (4095 : BitVec 32).toNat = none) ∧
    (63 : BitVec 32).toNat < ((ringed .linear16).arena .large).size.toNat ∧
    (ringed .linear16).byte? .large (63 : BitVec 32).toNat = some 0 := by decide

/-- A region that ends where the arena ends, and one that ends where the other instance begins. -/
theorem witness_RbinitBindsAndZeroFills :
    bare.fault = false ∧ bare.tablesValid = true ∧ bare.inited = false ∧ (bare.arena .small).declared = true ∧
    (bare.arena .small).mem.wf = true ∧ (¬ regionMisfit bare 0 .small .linear16 2032 16) ∧
    (ringed .linear16).fault = false ∧ (ringed .linear16).tablesValid = true ∧ (ringed .linear16).inited = false ∧
    ((ringed .linear16).arena .large).declared = true ∧ ((ringed .linear16).arena .large).mem.wf = true ∧
    ¬ regionMisfit (ringed .linear16) 1 .large .mulaw8 64 8 := by
  refine ⟨rfl, rfl, rfl, rfl, by decide, ?_, rfl, rfl, rfl, rfl, by decide, ?_⟩ <;> unfold regionMisfit <;> decide

/-- A count of 0 with a source past the end, and the last count whose source stays inside `INBUF`, as large as the instance; both
encodings; no fade, and the longest one. A tail entry whose sample is written by four samples at 30, and one whose sample is not. -/
theorem witness_RbwfWritesSamplesAtTheCursor (fade : BitVec 7) (hf : fade = 0 ∨ fade = 64) (enc : SampleFormat) :
    let s := { ringed enc with rings := (ringed enc).rings.set 0 { (ringed enc).rings[0] with fade := fade } }
    s.fault = false ∧ s.tablesValid = true ∧ s.rings[0].bound = true ∧
    ((0 : BitVec 16) = 0 ∨ (500 : BitVec 16).toNat + ((0 : BitVec 16).toNat - 1) * (2 : BitVec 16).toNat < 2 * bare.blockSize) ∧
    ((32 : BitVec 16) = 0 ∨ (1 : BitVec 16).toNat + ((32 : BitVec 16).toNat - 1) * (2 : BitVec 16).toNat < 2 * bare.blockSize) ∧
    (s.arena s.rings[0].space).mem.wf = true ∧ s.rings[0].wcur.toNat < s.rings[0].n.toNat ∧ s.rings[0].fade.toNat ≤ 64 ∧
    (32 : BitVec 16).toNat ≤ s.rings[0].n.toNat ∧
    (enc = .linear16 → (3 < (4 : BitVec 16).toNat ∧ (s.rings[0].wcur.toNat + 3) % s.rings[0].n.toNat = (1 : Fin 8).val) ∧
      ∀ k, k < (4 : BitVec 16).toNat → (s.rings[0].wcur.toNat + k) % s.rings[0].n.toNat ≠ (2 : Fin 8).val) := by
  rcases hf with rfl | rfl <;> cases enc <;> decide

theorem witness_FrozenWritesChangeOnlyTheFade :
    ([5] : List Half) ≠ [] ∧ (ringed .mulaw8).fault = false ∧ (ringed .mulaw8).tablesValid = true ∧
    (ringed .mulaw8).rings[0].bound = true ∧ (0 : BitVec 16) = 0 ∧
    ((32 : BitVec 16) = 0 ∨ (1 : BitVec 16).toNat + ((32 : BitVec 16).toNat - 1) * (2 : BitVec 16).toNat < 2 * bare.blockSize) := by
  decide

/-- A bound instance, and two taps of which the second is greater, at the largest fraction. -/
theorem witness_RbrdInterpolatesBehindTheCursor :
    (ringed .linear16).fault = false ∧ (ringed .linear16).tablesValid = true ∧ (ringed .linear16).rings[0].bound = true ∧
    65535 < 65536 ∧
    let s := { ringed .mulaw8 with large := ⟨true, 4096, ⟨[(0, 64)], [(1, 0x31)]⟩⟩ }
    1 < s.rings[0].n.toNat ∧ rbLoad s 0 0 < rbLoad s 0 1 := by decide

/-- As many samples as the instance holds, in both encodings. -/
theorem witness_WrittenSamplesReadBack (enc : SampleFormat) :
    (ringed enc).large.mem.wf = true ∧ (ringed enc).small.mem.wf = true ∧
    (ringed enc).rings[0].wcur.toNat < (ringed enc).rings[0].n.toNat ∧ (ringed enc).rings[0].fade = 0 ∧
    (List.replicate 32 (1000 : Half)).length ≤ (ringed enc).rings[0].n.toNat := by
  cases enc <;> decide

/-- The extreme values, in both encodings. -/
theorem witness_LoadAfterStore :
    (ringed .linear16).large.mem.wf = true ∧ (ringed .linear16).small.mem.wf = true ∧
    (ringed .linear16).rings[0].enc = .linear16 ∧ (ringed .mulaw8).large.mem.wf = true ∧
    (ringed .mulaw8).rings[0].enc = .mulaw8 ∧ ((-32768 : Int) ≤ -32768 ∧ (-32768 : Int) ≤ 32767) ∧
    ((-32768 : Int) ≤ 32767 ∧ (32767 : Int) ≤ 32767) ∧ (1 : Nat) ≠ 0 ∧
    ¬(Space.large = (ringed .linear16).rings[0].space ∧ inSample (ringed .linear16).rings[0] 0 2) := by
  refine ⟨by decide, by decide, rfl, by decide, rfl, by decide, by decide, by decide, fun h => ?_⟩
  exact absurd h.2 (by unfold inSample; decide)

/-- The last value of each clause: 123, 32635, 32636, -32768, and the ends of the range that encodes to 0x80. -/
theorem witness_MulawCodeErrorBounds :
    (0x7F : Byte) ≠ 0x80 ∧ ((-32768 : Int) ≤ 123 ∧ (123 : Int).natAbs < 124) ∧ (32635 : Int).natAbs ≤ 32635 ∧
    32635 < (32636 : Int).natAbs ∧ 32635 < (-32768 : Int).natAbs ∧ mulawEncode (-3) = 0x80 ∧ mulawEncode (-1) = 0x80 ∧
    mulawEncode (-4) ≠ 0x80 ∧ mulawEncode 0 ≠ 0x80 := by decide

theorem witness_FilterCommandsTouchOneInstance : bare.fault = false ∧ bare.tablesValid = true ∧ (6 : Fin 8) ≠ 7 := by decide

theorem witness_LimAndXfadeRespond :
    bare.fault = false ∧ bare.tablesValid = true ∧ (32768 : BitVec 16).toNat ≤ 32768 := by decide

theorem witness_SoftLimiterProperties :
    (1935 : Int) ≤ 1936 ∧ (-1935 : Int).natAbs ≤ 1935 ∧ (48725 : Int) ≤ 48725 ∧ (-48725 : Int) ≤ -48725 := by decide

/-- A state that passes the gate of `PROCESS` in every mode, stereo or mono, with the least and the largest `BLOCK_SIZE` and the
spec's. -/
theorem witness_PassesTheGate (mono : Bool) (m : Mode) (flags : Half) :
    (prepared mono m flags).fault = false ∧ (prepared mono m flags).inited = true ∧ (prepared mono m flags).bypass = false ∧
    (prepared mono m flags).silence = false ∧ stable (prepared mono m flags) ∧
    (32 : BitVec 16).toNat = (prepared mono m flags).blockSize ∧
    (∀ hw, stable { prepared mono m flags with hw := hw }) ∧
    (2 : BitVec 16).toNat = { prepared mono m flags with hw := ⟨0, 0, 0, 0, 0, 8⟩ }.blockSize ∧
    (256 : BitVec 16).toNat = { prepared mono m flags with hw := ⟨127, 0, 0, 0, 0, 8⟩ }.blockSize :=
  ⟨rfl, rfl, rfl, rfl, ⟨rfl, rfl⟩, rfl, fun _ => ⟨rfl, rfl⟩, rfl, rfl⟩

/-- The gate passed with the dry/wet settled at 0, and settled at 32768. -/
theorem witness_CrossfadeRampAndEndpoints :
    stable (prepared false .granular 0) ∧ (prepared false .granular 0).dwPrev = 0 ∧ (prepared false .granular 0).p[5] = 0 ∧
    let s := { prepared true .stretch 0 with p := Vector.replicate 10 32768, dwPrev := 32768 }
    s.fault = false ∧ s.inited = true ∧ s.bypass = false ∧ s.silence = false ∧ stable s ∧ s.dwPrev = 32768 ∧ s.p[5] = 32768 ∧
      (32 : BitVec 16).toNat = s.blockSize :=
  ⟨⟨rfl, rfl⟩, rfl, rfl, rfl, rfl, rfl, rfl, ⟨rfl, rfl⟩, rfl, rfl, rfl⟩

theorem witness_PrepareInStableOnlyWorksInTheBackground (m : Mode) :
    (prepared false m 0).fault = false ∧ (prepared false m 0).inited = true ∧ stable (prepared false m 0) :=
  ⟨rfl, rfl, rfl, rfl⟩

/-- A change among the modes that are not Spectral. -/
theorem witness_PrepareLightResetEffect :
    let s := { prepared false .granular 1 with mode := .loopingDelay }
    s.fault = false ∧ s.inited = true ∧ lightWanted s :=
  ⟨rfl, rfl, rfl, fun h => (nomatch h), fun h => (nomatch h), fun h => (nomatch h), fun h => (nomatch h)⟩

/-- The first `PREPARE`, stereo and mono with the least ring buffer, and a change into Spectral. -/
theorem witness_PrepareFullResetEffect :
    (inited.fault = false ∧ inited.inited = true ∧ fullWanted inited ∧ ¬ partitionMisfit inited ∧
      inited.large.mem.wf = true ∧ inited.small.mem.wf = true) ∧
    (let s := { inited with quality := 3, large := ⟨true, 1025, Memory.unspecified⟩ };
      fullWanted s ∧ ¬ partitionMisfit s ∧ s.large.mem.wf = true) ∧
    let s := { prepared true .granular 1 with mode := .spectral }
    s.fault = false ∧ s.inited = true ∧ fullWanted s ∧ ¬ partitionMisfit s ∧ s.large.mem.wf = true ∧ s.small.mem.wf = true := by
  refine ⟨⟨rfl, rfl, Or.inl rfl, ?_, rfl, rfl⟩, ⟨Or.inl rfl, ?_, rfl⟩, rfl, rfl, Or.inr ⟨fun h => (nomatch h), Or.inr (Or.inr rfl)⟩, ?_,
    by decide, by decide⟩ <;> unfold partitionMisfit <;> decide

/-- A full re-partition that completes. -/
theorem witness_PartitionRegionsAreDisjoint :
    inited.fault = false ∧ fullWanted inited ∧ ∃ t, exec .prepare inited = .next t ∧ t.fault = false ∧ t.rings[1].bound = true :=
  ⟨rfl, Or.inl rfl, _, rfl, rfl, rfl⟩

/-- A full re-partition of a frozen block, and a `PREPARE` that keeps it frozen. -/
theorem witness_FreezeAsymmetry :
    (let s := { prepared false .granular 1 with resetPending := true };
      s.fault = false ∧ s.large.mem.wf = true ∧ s.small.mem.wf = true ∧ fullWanted s ∧
        ∃ t, exec .prepare s = .next t ∧ t.fault = false ∧ t.rings[1].bound = true ∧ 1023 < t.rings[1].n.toNat) ∧
    let s := { prepared false .granular 1 with mode := .stretch }
    s.fault = false ∧ s.large.mem.wf = true ∧ s.small.mem.wf = true ∧ ¬ fullWanted s ∧
      ∃ t, exec .prepare s = .next t ∧ t.fault = false := by
  refine ⟨⟨rfl, by decide, by decide, Or.inl rfl, _, rfl, rfl, rfl, by decide⟩, rfl, by decide, by decide, ?_, _, rfl, rfl⟩
  rintro (h | ⟨-, h | h | h⟩) <;> exact nomatch h

theorem witness_BypassCopiesTheInput :
    let s := { inited with bypass := true }
    s.fault = false ∧ s.inited = true ∧ s.bypass = true ∧ (32 : BitVec 16).toNat = s.blockSize := ⟨rfl, rfl, rfl, rfl⟩

/-- Each ground for a silent block alone, and a `SETMODE` away from the committed mode. -/
theorem witness_ClosedGateIsSilent :
    ({ prepared true .stretch 0 with silence := true }.silence = true ∧ { prepared true .stretch 0 with silence := true }.bypass = false) ∧
    (inited.fault = false ∧ inited.inited = true ∧ inited.bypass = false ∧ inited.resetPending = true) ∧
    ({ prepared true .stretch 0 with mode := .granular }.prevMode ≠ some .granular) ∧
    (prepared true .stretch 0).fault = false ∧ (prepared true .stretch 0).inited = true ∧
    (prepared true .stretch 0).bypass = false ∧ (3 : BitVec 8).toNat = Mode.spectral.code ∧
    (prepared true .stretch 0).prevMode ≠ some .spectral ∧ (32 : BitVec 16).toNat = inited.blockSize ∧
    (32 : BitVec 16).toNat = (prepared true .stretch 0).blockSize :=
  ⟨⟨rfl, rfl⟩, ⟨rfl, rfl, rfl, rfl⟩, fun h => (nomatch h), rfl, rfl, rfl, rfl, fun h => (nomatch h), rfl, rfl⟩

/-- The gate passed in a mode of each clause (with `witness_PassesTheGate`), and in high and in low fidelity. -/
theorem witness_ProcessChangesOnlyItsUnits (mono : Bool) :
    (prepared mono .granular 0).mode ≠ .stretch ∧ (prepared mono .stretch 0).mode ≠ .granular ∧
    (prepared mono .spectral 0).mode ≠ .loopingDelay ∧ (prepared mono .loopingDelay 1).mode ≠ .spectral ∧
    (prepared mono .granular 0).mode = .granular ∧ (prepared mono .stretch 0).mode = .stretch ∧
    (prepared mono .loopingDelay 1).mode = .loopingDelay ∧ (prepared mono .spectral 0).mode = .spectral ∧
    (prepared mono .granular 0).quality.getLsbD 1 = false ∧
    let s := { prepared mono .granular 0 with quality := 2 }
    s.fault = false ∧ s.inited = true ∧ s.bypass = false ∧ s.silence = false ∧ stable s ∧ s.quality.getLsbD 1 = true ∧
      (32 : BitVec 16).toNat = s.blockSize :=
  ⟨fun h => (nomatch h), fun h => (nomatch h), fun h => (nomatch h), fun h => (nomatch h), rfl, rfl, rfl, rfl,
    by cases mono <;> rfl, rfl, rfl, rfl, rfl, ⟨rfl, rfl⟩, (show (2 : BitVec 2).getLsbD 1 = true by decide), rfl⟩

/-- The gate passed with every parameter at the end of its range. -/
theorem witness_ProcessDerivesItsParameters :
    let s := { prepared false .granular 7 with p := ((Vector.replicate 10 32768).set 2 12288).set 9 7 }
    s.fault = false ∧ s.inited = true ∧ s.bypass = false ∧ s.silence = false ∧ stable s ∧
      (32 : BitVec 16).toNat = s.blockSize ∧ ParamsOk s := by
  refine ⟨rfl, rfl, rfl, rfl, ⟨rfl, rfl⟩, rfl, ?_, by decide, by decide, by decide, by decide⟩
  intro k
  revert k
  show ∀ k : Fin 10, k ≠ 2 → k ≠ 9 → (((Vector.replicate 10 (32768 : Half)).set 2 12288).set 9 7)[k].toNat ≤ 32768
  decide

/-- A run's state that passes the gate, in Spectral mode, frozen, and recording in mono and stereo. -/
theorem witness_ProcessRecordsTheBlock :
    (∀ mono m (flags : Half), flags.toNat ≤ 7 → (prepared mono m flags).Inv ∧ stable (prepared mono m flags) ∧
      (32 : BitVec 16).toNat = (prepared mono m flags).blockSize) ∧
    (prepared false .spectral 0).mode = .spectral ∧
    ((prepared false .granular 1).mode ≠ .spectral ∧ (prepared false .granular 1).p[9].getLsbD 0 = true) ∧
    ((prepared true .stretch 6).mode ≠ .spectral ∧ (prepared true .stretch 6).p[9].getLsbD 0 = false ∧
      (prepared true .stretch 6).quality.getLsbD 0 = true) ∧
    (prepared false .loopingDelay 0).mode ≠ .spectral ∧ (prepared false .loopingDelay 0).quality.getLsbD 0 = false :=
  ⟨fun mono m flags h => ⟨prepared_inv mono m flags h, ⟨rfl, rfl⟩, rfl⟩, rfl, ⟨fun h => (nomatch h), rfl⟩,
    ⟨fun h => (nomatch h), rfl, rfl⟩, fun h => (nomatch h), rfl⟩

theorem witness_FreezeFollowerReachesItsTarget : (32768 : Half).toNat ≤ 32768 ∧ (0 : Half).toNat ≤ 32768 := by decide

/-- A `PROCESS` of the right size that passes its gate does not fault. -/
theorem process_noFault (s : State) (size : BitVec 16) (h : size.toNat = s.blockSize) (h1 : s.fault = false) (h2 : s.inited = true) (h3 : s.bypass = false)
    (h4 : s.silence = false) (h5 : stable s) : ∃ t, exec (.process size) s = .next t ∧ t.fault = false := by
  have hs : processSteps s = processBlock s := by simp [processSteps, State.gated, h3, h4, h5.1, h5.2]
  refine ⟨{ processBlock s with resp := none, cmdcnt := (processBlock s).cmdcnt + 1 }, ?_, ?_⟩
  · simp [exec, execProcess, unlessFaulted, h, h1, h2, hs]
  · exact (congrArg State.fault (processBlock_eq s)).trans h1

/-- Two `PROCESS` commands that pass their gates on different audio and different ring buffers, with equal parameters. -/
theorem witness_DerivedParametersArePure :
    let s := prepared false .granular 0
    let s' := { prepared true .granular 0 with inbuf := List.replicate 32 ⟨1, 2⟩ }
    (s.bypass = false ∧ s'.bypass = false ∧ s.silence = false ∧ s'.silence = false ∧ stable s ∧ stable s' ∧ s.fault = false ∧
      s'.fault = false) ∧
    ((∃ t, exec (.process 32) s = .next t ∧ t.fault = false) ∧ ∃ t', exec (.process 32) s' = .next t' ∧ t'.fault = false) ∧
    s.p[3] = s'.p[3] ∧ s.p[4] = s'.p[4] ∧ s.p[1] = s'.p[1] ∧ s.mode = s'.mode ∧ s.p[7] = s'.p[7] ∧ s.p[8] = s'.p[8] :=
  ⟨⟨rfl, rfl, rfl, rfl, ⟨rfl, rfl⟩, ⟨rfl, rfl⟩, rfl, rfl⟩,
    ⟨process_noFault _ 32 rfl rfl rfl rfl rfl ⟨rfl, rfl⟩, process_noFault _ 32 rfl rfl rfl rfl rfl ⟨rfl, rfl⟩⟩, rfl, rfl, rfl, rfl, rfl, rfl⟩

/-- Silent instances of the least size, in mono, with the random spawn decision. -/
theorem witness_SilentBuffersPlaySilence :
    let s := { ringed .mulaw8 with quality := 1 }
    0 < s.rings[0].n.toNat ∧ s.rings[0].tail[0] = 0 ∧ s.rings[1].tail[0] = 0 ∧ s.mono = true ∧ s.drv.det = false ∧
      ∀ a, a < s.rings[0].n.toNat → rbLoad s 0 a = 0 := by
  refine ⟨by decide, rfl, rfl, rfl, rfl, ?_⟩
  decide

/-- The same in stereo: both instances zero-filled, of one size. -/
theorem witness_SilentBuffersPlaySilence_stereo :
    let s := { ringed .mulaw8 with
      small := ⟨true, 2048, ⟨[(0, 64)], []⟩⟩
      rings := #v[⟨true, .mulaw8, .large, 0, 64, 64, 0, 0, Vector.replicate 8 0⟩,
        ⟨true, .mulaw8, .small, 0, 64, 64, 0, 0, Vector.replicate 8 0⟩] }
    s.mono = false ∧ s.rings[1].n = s.rings[0].n ∧ (∀ a, a < s.rings[0].n.toNat → rbLoad s 0 a = 0) ∧
      ∀ a, a < s.rings[1].n.toNat → rbLoad s 1 a = 0 := by
  refine ⟨rfl, rfl, ?_, ?_⟩ <;> decide

/-- One candidate and the largest count, at eight a step, after the step that finishes the search and the one before. -/
theorem witness_SearchFindsTheFirstBestCandidate :
    (0 < 8 * 1 ∧ (0 : Fin Config.wsCandMax).val + 1 ≤ 8 * 1) ∧
    ((65534 : Fin Config.wsCandMax).val + 1 ≤ 8 * 8192 ∧ 8 * 8191 < (65534 : Fin Config.wsCandMax).val + 1) ∧
    (0 : Half).toNat < min (8 * 1) ((0 : Fin Config.wsCandMax).val + 1) := by decide

/-- A run's state in Granular mode that passes the gate, with the trigger set and all slots free: at density and size 0 the grid of 16
samples and a block of 32 make the count 2, so slot 0 is spawned into and slot 15 stays. And a run's state with slot 0 playing its
last sample. -/
theorem witness_ProcessWritesTheGrainRegisters :
    (let s := prepared false .granular 2;
      s.Inv ∧ stable s ∧ s.mode = .granular ∧ s.p[9].getLsbD 1 = true ∧ s.grains.slots[0].active = false ∧
        (32 : BitVec 16).toNat = s.blockSize ∧
        idleBelow s.grains 0 = 0 ∧ idleBelow s.grains 15 = 15) ∧
    let s := { prepared false .granular 0 with
      grains := ⟨1, 0, (Vector.replicate 16 GrainSlot.clear).set 0 ⟨true, 0, 0, 15, 16, 65536, 32768, 32768⟩⟩ }
    s.Inv ∧ s.fault = false ∧ s.inited = true ∧ s.bypass = false ∧ s.silence = false ∧ stable s ∧ s.mode = .granular ∧
      (32 : BitVec 16).toNat = s.blockSize ∧ s.grains.slots[0].active = true := by
  refine ⟨⟨prepared_inv false .granular 2 (by decide), ⟨rfl, rfl⟩, rfl, rfl, rfl, rfl, by decide, by decide⟩, ?_, rfl, rfl, rfl, rfl,
    ⟨rfl, rfl⟩, rfl, rfl, rfl⟩
  obtain ⟨h1, h2, ⟨a, b, c, d⟩, ⟨e, f, g, i, j⟩, h5, ⟨k, l, m, n⟩, h7, -, ⟨o, p, q⟩, ⟨u, v, w', x, y, z⟩, h11⟩ :=
    prepared_inv false .granular 0 (by decide)
  refine ⟨h1, h2, ⟨a, b, c, d⟩, ⟨e, f, g, i, j⟩, h5, ⟨k, l, m, n⟩, h7, ?_,
    ⟨fun i hi => let ⟨a, b, c, d, e, f, g, h, j⟩ := o i hi; ⟨a, b, c, d, e, f, g, h, j⟩, p, q⟩, ⟨u, v, w', x, y, z⟩, h11⟩
  intro k
  show GrainOk ((Vector.replicate 16 GrainSlot.clear).set 0 ⟨true, 0, 0, 15, 16, 65536, 32768, 32768⟩)[k]
  unfold GrainOk
  revert k
  decide

end Sys2Proof.Tests
end

section
/-! PROOFS. What a step can do, said once: the effect of each command that completes (`Completes`), the three ends of a command
(`Ends`), and the induction every invariant of a step uses (`step_keeps`). -/

namespace Sys2Proof.Machine

/-! ## The effect of a command that completes -/

/-- The effect of a command whose checks all passed, with what the checks say (60_exceptions.md R182 to R185). The count and the
response of its end are not part of the effect. -/
inductive Completes (s : State) : Instr → State → Prop where
  | nop : Completes s .nop s
  | csrr (addr : BitVec 16) : Completes s (.csrr addr) s
  | arena (which : Space) (size : BitVec 32) (before : s.inited = false) (pos : size ≠ 0) (small : size.toNat < 2 ^ 24) :
      Completes s (.arena which size) (declareArena s which (size.setWidth 24))
  | tblinit (sr : BitVec 32) (pos : sr ≠ 0) :
      Completes s (.tblinit sr) { s with tblSr := sr, tablesValid := true }
  | init (sr : BitVec 32) (tables : s.tablesValid = true) (large : s.large.declared = true)
      (small : s.small.declared = true) (pos : sr ≠ 0) : Completes s (.init sr) (initBlock s sr)
  | pset (index : BitVec 8) (value : BitVec 16) (h : index.toNat < 10) :
      Completes s (.pset index value) { s with p := s.p.set index.toNat (paramValue index.toNat value) h }
  | setmode (mode : BitVec 8) (m : Mode) (h : Mode.ofNat? mode.toNat = some m) :
      Completes s (.setmode mode) { s with mode := m }
  | setqual (quality : BitVec 8) (h : quality.toNat ≤ 3) :
      Completes s (.setqual quality)
        { s with
          resetPending := s.resetPending || decide (quality.setWidth 2 ≠ s.quality)
          quality := quality.setWidth 2 }
  | setsil (flag : Bool) : Completes s (.setsil flag) { s with silence := flag }
  | setbyp (flag : Bool) : Completes s (.setbyp flag) { s with bypass := flag }
  | rstbuf : Completes s .rstbuf { s with resetPending := true }
  | prepareFull (plan : Partition) (after : s.inited = true) (fits : partition? s = some plan) :
      Completes s .prepare (background (fullReset s plan))
  | prepareLight (after : s.inited = true) (kind : prepareKind s = .light) :
      Completes s .prepare (background (lightReset s))
  | prepareNone (after : s.inited = true) (kind : prepareKind s = .none) : Completes s .prepare (background s)
  | processBypass (size : BitVec 16) (bypass : s.bypass = true) : Completes s (.process size) { s with outbuf := s.inbuf }
  | processSilent (size : BitVec 16) (bypass : s.bypass = false) (gate : s.gated = true) :
      Completes s (.process size) { s with outbuf := zeroBlock s.blockSize }
  | processBlock (size : BitVec 16) (after : s.inited = true) (bypass : s.bypass = false) (gate : s.gated = false) :
      Completes s (.process size) (processBlock s)
  | framew (index left right : BitVec 16) :
      Completes s (.framew index left right) { s with inbuf := s.inbuf.set index.toNat ⟨left, right⟩ }
  | framer (index : BitVec 16) : Completes s (.framer index) s
  | peek (space : Space) (addr : BitVec 32) : Completes s (.peek space addr) s
  | peekFree (space : Space) (addr : BitVec 32) : Completes s (.peek space addr) { s with draws := s.draws + 1 }
  | rbinit (inst : Fin 2) (space : Space) (enc : SampleFormat) (base size : BitVec 24) (before : s.inited = false)
      (declared : (s.arena space).declared = true) (fits : rbinitMisfit s inst space enc base size = false) :
      Completes s (.rbinit inst space enc base size) (rbBind s inst space enc base size)
  | rbwf (inst : Fin 2) (allow : Bool) (count stride src : BitVec 16) (bound : s.rings[inst].bound = true) :
      Completes s (.rbwf inst allow count stride src) (rbWrite s inst (rbwfSamples s count stride src) allow)
  | rbrd (inst : Fin 2) (offset : BitVec 32) (frac : BitVec 16) : Completes s (.rbrd inst offset frac) s
  | svfrst (inst : Fin 8) : Completes s (.svfrst inst) (s.withSvf inst (svfClear s.svfs[inst]))
  | svfset (inst : Fin 8) (f : BitVec 16) (q : BitVec 32) :
      Completes s (.svfset inst f q) (s.withSvf inst (svfSet s.svfs[inst] f.toNat q.toNat))
  | svfstep (inst : Fin 8) (x : BitVec 32) :
      Completes s (.svfstep inst x) (s.withSvf inst (svfStep s.svfs[inst] x.toInt))
  | lim (x : BitVec 32) : Completes s (.lim x) s
  | xfade (dw dry wet : BitVec 16) : Completes s (.xfade dw dry wet) s

/-- The three ends of a command: discarded in the faulted state but for the response of a `CSRR` (60_exceptions.md R187), a fault
taken (R186), or completed. -/
inductive Ends (s : State) (i : Instr) : State → Prop where
  | discarded (faulted : s.fault = true) (r : Option Word) : Ends s i { s with resp := r }
  | faulted (clear : s.fault = false) (c : Cause) (info : Nat) (w : Cmd) : Ends s i (s.faulted c info w)
  | completed (clear : s.fault = false) (r : Option Word) {u : State} (effect : Completes s i u) :
      Ends s i { u with resp := r, cmdcnt := u.cmdcnt + 1 }

section

variable {s t u : State} {i : Instr}

/-- A command is discarded in the faulted state; otherwise its own checks decide. -/
theorem Ends.of_unlessFaulted {run : Result} (h : unlessFaulted s run = .next t)
    (hrun : s.fault = false → run = .next t → Ends s i t) : Ends s i t := by
  rcases unlessFaulted_cases h with ⟨hf, ht⟩ | ⟨hf, hr⟩
  · cases ht
    exact .discarded hf none
  · exact hrun hf hr.symm

theorem Ends.of_raise {c : Cause} {info : Nat} {w : Cmd} (hf : s.fault = false) (h : raise c info w s = .next t) :
    Ends s i t := by
  cases h
  exact .faulted hf c info w

theorem Ends.of_complete {r : Option Word} (hf : s.fault = false) (hc : Completes s i u)
    (h : complete r u = .next t) : Ends s i t := by
  cases h
  exact .completed hf r hc

/-- A command that tests one condition and then completes or takes a fault. -/
theorem Ends.of_check {p : Prop} [Decidable p] {c : Cause} {info : Nat} {w : Cmd} {run : Result} (hf : s.fault = false)
    (hrun : ¬p → run = .next t → Ends s i t) (h : (if p then raise c info w s else run) = .next t) : Ends s i t := by
  split at h
  · exact .of_raise hf h
  · exact hrun ‹_› h

theorem execCsrr_ends (addr : BitVec 16) (h : execCsrr addr s = .next t) : Ends s (.csrr addr) t := by
  unfold execCsrr at h
  split at h
  · split at h
    · cases h
      exact .discarded ‹_› _
    · exact .of_complete (by simpa using ‹¬s.fault = true›) (.csrr addr) h
  · exact .of_unlessFaulted h fun hf h => .of_raise hf h

theorem execArena_ends (which : Space) (size : BitVec 32) (h : execArena which size s = .next t) :
    Ends s (.arena which size) t := by
  refine .of_unlessFaulted h fun hf h => .of_check hf (fun hi h => .of_check hf (fun hs h => ?_) h) h
  rw [not_or, not_le] at hs
  exact .of_complete hf (.arena which size (by simpa using hi) hs.1 hs.2) h

theorem execTblinit_ends (sr : BitVec 32) (h : execTblinit sr s = .next t) : Ends s (.tblinit sr) t :=
  .of_unlessFaulted h fun hf h => .of_check hf (fun _ h => .of_check hf (fun h0 h => .of_complete hf (.tblinit sr h0) h) h) h

theorem execInit_ends (sr : BitVec 32) (h : execInit sr s = .next t) : Ends s (.init sr) t := by
  refine .of_unlessFaulted h fun hf h => .of_check hf (fun hc h => .of_check hf (fun h0 h => ?_) h) h
  simp only [Bool.or_eq_true, Bool.not_eq_true', not_or, Bool.not_eq_false] at hc
  obtain ⟨⟨⟨ht, -⟩, hl⟩, hs⟩ := hc
  exact .of_complete hf (.init sr ht hl hs h0) h

theorem execPset_ends (index : BitVec 8) (value : BitVec 16) (h : execPset index value s = .next t) :
    Ends s (.pset index value) t := by
  refine .of_unlessFaulted h fun hf h => ?_
  split at h
  · exact .of_complete hf (.pset index value ‹_›) h
  · exact .of_raise hf h

theorem execSetmode_ends (mode : BitVec 8) (h : execSetmode mode s = .next t) : Ends s (.setmode mode) t := by
  refine .of_unlessFaulted h fun hf h => ?_
  split at h
  · exact .of_complete hf (.setmode mode _ ‹_›) h
  · exact .of_raise hf h

theorem execSetqual_ends (quality : BitVec 8) (h : execSetqual quality s = .next t) : Ends s (.setqual quality) t :=
  .of_unlessFaulted h fun hf h =>
    .of_check hf (fun hq h => .of_complete hf (.setqual quality (not_lt.mp hq)) h) h

theorem execPrepare_ends (h : execPrepare s = .next t) : Ends s .prepare t := by
  refine .of_unlessFaulted h fun hf h => .of_check hf (fun hi h => ?_) h
  have hi : s.inited = true := by simpa using hi
  split at h
  · split at h
    · exact .of_complete hf (.prepareFull _ hi ‹_›) h
    · exact .of_raise hf h
  · exact .of_complete hf (.prepareLight hi ‹_›) h
  · exact .of_complete hf (.prepareNone hi ‹_›) h

theorem execProcess_ends (size : BitVec 16) (h : execProcess size s = .next t) : Ends s (.process size) t := by
  refine .of_unlessFaulted h fun hf h => .of_check hf (fun hi h => .of_check hf (fun _ h => ?_) h) h
  have hi : s.inited = true := by simpa using hi
  unfold processSteps at h
  split at h
  · exact .of_complete hf (.processBypass size ‹_›) h
  · have hb : s.bypass = false := by simpa using ‹¬s.bypass = true›
    split at h
    · exact .of_complete hf (.processSilent size hb ‹_›) h
    · exact .of_complete hf (.processBlock size hi hb (by simpa using ‹¬s.gated = true›)) h

theorem execFramew_ends (index left right : BitVec 16) (h : execFramew index left right s = .next t) :
    Ends s (.framew index left right) t := by
  refine .of_unlessFaulted h fun hf h => ?_
  split at h
  · exact .of_complete hf (.framew index left right) h
  · exact .of_raise hf h

theorem execFramer_ends (index : BitVec 16) (h : execFramer index s = .next t) : Ends s (.framer index) t := by
  refine .of_unlessFaulted h fun hf h => ?_
  split at h
  · exact .of_complete hf (.framer index) h
  · exact .of_raise hf h

theorem execPeek_ends (space : Space) (addr : BitVec 32) (h : execPeek space addr s = .next t) :
    Ends s (.peek space addr) t := by
  refine .of_unlessFaulted h fun hf h => .of_check hf (fun _ h => .of_check hf (fun _ h => ?_) h) h
  split at h
  · exact .of_complete hf (.peek space addr) h
  · exact .of_complete hf (.peekFree space addr) h

theorem execRbinit_ends (inst : Fin 2) (space : Space) (enc : SampleFormat) (base size : BitVec 24)
    (h : execRbinit inst space enc base size s = .next t) : Ends s (.rbinit inst space enc base size) t := by
  refine .of_unlessFaulted h fun hf h => .of_check hf (fun hc h => .of_check hf (fun hm h => ?_) h) h
  simp only [Bool.or_eq_true, Bool.not_eq_true', not_or, Bool.not_eq_true, Bool.not_eq_false] at hc
  obtain ⟨⟨-, hi⟩, hd⟩ := hc
  exact .of_complete hf (.rbinit inst space enc base size hi hd (by simpa using hm)) h

theorem execRbwf_ends (inst : Fin 2) (allow : Bool) (count stride src : BitVec 16)
    (h : execRbwf inst allow count stride src s = .next t) : Ends s (.rbwf inst allow count stride src) t := by
  refine .of_unlessFaulted h fun hf h =>
    .of_check hf (fun _ h => .of_check hf (fun _ h => .of_check hf (fun hb h => ?_) h) h) h
  exact .of_complete hf (.rbwf inst allow count stride src (by simpa using hb)) h

/-- The ends of every command. -/
theorem exec_ends (h : exec i s = .next t) : Ends s i t := by
  cases i with
  | nop => exact .of_unlessFaulted h fun hf h => .of_complete hf .nop h
  | csrr addr => exact execCsrr_ends addr h
  | arena which size => exact execArena_ends which size h
  | tblinit sr => exact execTblinit_ends sr h
  | init sr => exact execInit_ends sr h
  | pset index value => exact execPset_ends index value h
  | setmode mode => exact execSetmode_ends mode h
  | setqual quality => exact execSetqual_ends quality h
  | setsil flag => exact .of_unlessFaulted h fun hf h => .of_complete hf (.setsil flag) h
  | setbyp flag => exact .of_unlessFaulted h fun hf h => .of_complete hf (.setbyp flag) h
  | rstbuf => exact .of_unlessFaulted h fun hf h => .of_complete hf .rstbuf h
  | prepare => exact execPrepare_ends h
  | process size => exact execProcess_ends size h
  | framew index left right => exact execFramew_ends index left right h
  | framer index => exact execFramer_ends index h
  | peek space addr => exact execPeek_ends space addr h
  | rbinit inst space enc base size => exact execRbinit_ends inst space enc base size h
  | rbwf inst allow count stride src => exact execRbwf_ends inst allow count stride src h
  | rbrd inst offset frac =>
    exact .of_unlessFaulted h fun hf h =>
      .of_check hf (fun _ h => .of_check hf (fun _ h => .of_complete hf (.rbrd inst offset frac) h) h) h
  | svfrst inst =>
    exact .of_unlessFaulted h fun hf h => .of_check hf (fun _ h => .of_complete hf (.svfrst inst) h) h
  | svfset inst f q =>
    exact .of_unlessFaulted h fun hf h => .of_check hf (fun _ h => .of_complete hf (.svfset inst f q) h) h
  | svfstep inst x =>
    exact .of_unlessFaulted h fun hf h => .of_check hf (fun _ h => .of_complete hf (.svfstep inst x) h) h
  | lim x => exact .of_unlessFaulted h fun hf h => .of_check hf (fun _ h => .of_complete hf (.lim x) h) h
  | xfade dw dry wet =>
    exact .of_unlessFaulted h fun hf h =>
      .of_check hf (fun _ h => .of_check hf (fun _ h => .of_complete hf (.xfade dw dry wet) h) h) h

/-! ## The induction over a step -/

/-- The state with its fault record, its count, its ports and its drawn values replaced: what a step may write apart from the
effect of a command. -/
def State.booked (s : State) (fault : Bool) (cause : BitVec 3) (info lo hi count : BitVec 32) (inputs : List HostEvent)
    (resp : Option Word) (draws : Nat) : State :=
  { s with
    fault := fault
    faultCause := cause
    faultInfo := info
    faultCmdLo := lo
    faultCmdHi := hi
    cmdcnt := count
    inputs := inputs
    resp := resp
    draws := draws }

/-- An invariant that does not speak of the fault record, the count and the ports is kept by every step when it holds at reset and
every command that completes keeps it. -/
theorem step_keeps {P : State → Prop}
    (booked : ∀ s f c a lo hi n ins r d, P s → P (s.booked f c a lo hi n ins r d))
    (reset : ∀ hw, P (State.resetFor hw)) (effect : ∀ s i u, P s → Completes s i u → P u) (hs : P s)
    (h : step s = .next t) : P t := by
  rcases step_cases h with ⟨-, ht⟩ | ⟨rest, -, ht⟩ | ⟨w, rest, i, -, -, ht⟩ | ⟨w, rest, e, -, -, ht⟩
  · cases ht
    exact hs
  · cases ht
    exact booked _ _ _ _ _ _ _ rest _ s.draws (reset s.hw)
  · have hs' : P { s with inputs := rest } := booked s _ _ _ _ _ _ rest _ _ hs
    cases exec_ends ht.symm with
    | discarded hf r => exact booked s _ _ _ _ _ _ rest r _ hs
    | faulted hf c info w => exact booked s _ _ _ _ _ _ rest _ _ hs
    | completed hf r hc => exact booked _ _ _ _ _ _ _ _ r _ (effect _ _ _ hs' hc)
  · rcases unlessFaulted_cases ht.symm with ⟨-, ht⟩ | ⟨-, ht⟩
    · cases ht
      exact booked s _ _ _ _ _ _ rest none _ hs
    · cases ht
      exact booked s _ _ _ _ _ _ rest none _ hs

/-- Settles O5: the three kinds of step, by what the port holds. -/
theorem stepRunsTheDecodedCommand : Obligations.StepRunsTheDecodedCommand := by
  unfold Obligations.StepRunsTheDecodedCommand
  refine ⟨fun s w rest i h hd => ?_, fun s w rest e h hd => ?_, fun s rest h => step_reset h, fun s h => step_nil h⟩
  · rw [step_command h, hd]
  · rw [step_command h, hd]

end

end Sys2Proof.Machine
end

section
/-! PROOFS. What each effect can change, as record updates, and the claims about which command writes which register (10_state.md). -/

namespace Sys2Proof.Machine

/-! ## Frames -/

/-- Declaring an arena writes that arena and the ring buffers (47_host_commands.md R138). -/
theorem declareArena_eq (s : State) (which : Space) (size : BitVec 24) :
    declareArena s which size =
      { s with
        large := (declareArena s which size).large
        small := (declareArena s which size).small
        rings := mapVector (unbindIn which) s.rings } := by
  cases which <;> rfl

theorem declareArena_arena (s : State) (which sp : Space) (size : BitVec 24) :
    (declareArena s which size).arena sp = if sp = which then ⟨true, size, Memory.unspecified⟩ else s.arena sp := by
  cases which <;> cases sp <;> rfl

/-- A binding writes the bytes of the arenas and one register set. -/
theorem rbBind_frame (s : State) (i : Fin 2) (space : Space) (enc : SampleFormat) (base size : BitVec 24) :
    ∃ ml ms, rbBind s i space enc base size =
      { s with
        large := { s.large with mem := ml }
        small := { s.small with mem := ms }
        rings := s.rings.set i (boundRing space enc base size) } := by
  cases space
  · exact ⟨_, s.small.mem, rbBind_large s i enc base size⟩
  · exact ⟨s.large.mem, _, rbBind_small s i enc base size⟩

/-- A write changes the bytes of the arenas and one register set. -/
theorem Written.record {s t : State} {i : Fin 2} (h : Written s t i) :
    ∃ ml ms r, t =
      { s with
        large := { s.large with mem := ml }
        small := { s.small with mem := ms }
        rings := s.rings.set i r } := by
  obtain ⟨f, r, rfl, -⟩ := h.effect
  cases s.rings[i].space
  · exact ⟨f s.large.mem, s.small.mem, r, rfl⟩
  · exact ⟨s.large.mem, f s.small.mem, r, rfl⟩

/-- Background work writes the search registers and the kernel states (48_sequencer.md R155). -/
theorem background_frame (s : State) : ∃ w k, background s = { s with search := w, kernels := k } :=
  ⟨_, _, background_eq s⟩

/-- What a `PREPARE` with a full re-partition writes (48_sequencer.md R152). -/
theorem background_fullReset_frame (s : State) (plan : Partition) :
    ∃ ml ms rs w k, background (fullReset s plan) =
      { s with
        p := s.p.set 9 (s.p[9] &&& 0xFFFE)
        large := { s.large with mem := ml }
        small := { s.small with mem := ms }
        rings := rs
        wsSpace := plan.wsSpace
        wsBase := plan.wsBase
        wsSize := plan.wsSize
        svfs := clearAllSvf s.svfs
        upPrev := Frame.zero
        grains := if s.mode = .granular then GrainPool.fresh else s.grains
        search := w
        kernels := k
        loopSync := false
        resetPending := false
        prevMode := some s.mode } := by
  obtain ⟨w, k, hb⟩ := background_frame (fullReset s plan)
  obtain ⟨t, ht, hf⟩ := fullReset_eq s plan
  rw [carve_eq] at ht
  subst ht
  rw [hb, hf]
  exact ⟨_, _, _, w, k, rfl⟩

/-- What a `PREPARE` with a lightweight reset writes (48_sequencer.md R153). -/
theorem background_lightReset_frame (s : State) :
    ∃ w k, background (lightReset s) =
      { s with
        svfs := clearAllSvf s.svfs
        grains := if s.mode = .granular then GrainPool.fresh else s.grains
        search := w
        kernels := k
        loopSync := false
        prevMode := some s.mode } := by
  obtain ⟨w, k, hb⟩ := background_frame (lightReset s)
  rw [hb, lightReset_eq]
  exact ⟨w, k, rfl⟩

/-- What the ring buffers record leaves the sizes of both arenas. -/
theorem recordStage_frame (s : State) (x : List Frame) :
    ∃ ml ms rs, recordStage s x =
      { s with
        large := { s.large with mem := ml }
        small := { s.small with mem := ms }
        rings := rs } := by
  obtain ⟨t, h0, h1⟩ := recordStage_written s x
  obtain ⟨ml, ms, r, rfl⟩ := h0.record
  obtain ⟨ml', ms', r', h⟩ := h1.record
  exact ⟨ml', ms', _, h⟩

/-- What a `PROCESS` that passes its gate writes (48_sequencer.md R156). -/
theorem processBlock_frame (s : State) :
    ∃ v ml ms rs g w k b up f o, processBlock s =
      { s with
        freezeLp := freezeFollow s.frozen s.freezeLp
        drv := derived { s with freezeLp := freezeFollow s.frozen s.freezeLp }
        dwPrev := s.p[5]
        svfs := v
        large := { s.large with mem := ml }
        small := { s.small with mem := ms }
        rings := rs
        grains := g
        search := w
        kernels := k
        loopSync := b
        upPrev := up
        fbbuf := f
        outbuf := o } := by
  have h := processBlock_eq s
  obtain ⟨ml, ms, rs, hr⟩ := recordStage_frame (processInput s).1 (processInput s).2
  rw [hr, processInput_eq] at h
  exact ⟨_, ml, ms, rs, _, _, _, _, _, _, _, h⟩

/-- What holds of both arenas. -/
theorem space_forall {p : Space → Prop} : (∀ sp, p sp) ↔ p .large ∧ p .small :=
  ⟨fun h => ⟨h .large, h .small⟩, fun h sp => by cases sp; exacts [h.1, h.2]⟩

/-- Writing one element of a vector changes no other. -/
theorem eq_of_get_set_ne {α : Type} {n : Nat} {v : Vector α n} {i k : Fin n} {x : α}
    (h : (v.set i x)[k] ≠ v[k]) : i = k := by
  by_contra hik
  exact h (Vector.getElem_set_ne _ _ fun e => hik (Fin.ext e))

section

variable {s t u : State} {i : Instr}

/-- No effect touches the fault record, the count, the parameters of the block or the host's events. -/
theorem Completes.bookkeeping_eq (hc : Completes s i u) :
    u.fault = s.fault ∧ u.faultCause = s.faultCause ∧ u.faultInfo = s.faultInfo ∧ u.faultCmdLo = s.faultCmdLo ∧
      u.faultCmdHi = s.faultCmdHi ∧ u.cmdcnt = s.cmdcnt ∧ u.hw = s.hw ∧ u.inputs = s.inputs := by
  cases hc with
  | arena which size =>
    rw [declareArena_eq]
    exact ⟨rfl, rfl, rfl, rfl, rfl, rfl, rfl, rfl⟩
  | prepareFull plan =>
    obtain ⟨ml, ms, rs, w, k, e⟩ := background_fullReset_frame s plan
    simp [e]
  | prepareLight =>
    obtain ⟨w, k, e⟩ := background_lightReset_frame s
    simp [e]
  | prepareNone =>
    obtain ⟨w, k, e⟩ := background_frame s
    simp [e]
  | processBlock =>
    obtain ⟨v, ml, ms, rs, g, w, k, b, up, f, o, e⟩ := processBlock_frame s
    simp [e]
  | rbinit inst space enc base size =>
    obtain ⟨ml, ms, e⟩ := rbBind_frame s inst space enc base size
    simp [e]
  | rbwf inst allow count stride src =>
    obtain ⟨ml, ms, q, e⟩ := (rbWrite_written s inst (rbwfSamples s count stride src) allow).record
    simp [e]
  | _ => exact ⟨rfl, rfl, rfl, rfl, rfl, rfl, rfl, rfl⟩

/-! ## Which command writes which register -/

/-- The write columns of 10_state.md and of 20_memory.md R43 for the effect of a command: what the effect can write only where the
command is one of those named. -/
structure WritesOnly (s : State) (i : Instr) (u : State) : Prop where
  tablesValid : u.tablesValid ≠ s.tablesValid → ∃ sr, i = .tblinit sr
  tblSr : u.tblSr ≠ s.tblSr → ∃ sr, i = .tblinit sr
  inited : u.inited ≠ s.inited → ∃ sr, i = .init sr
  sr : u.sr ≠ s.sr → ∃ sr, i = .init sr
  mode : u.mode ≠ s.mode → (∃ m, i = .setmode m) ∨ ∃ sr, i = .init sr
  resetPending : u.resetPending ≠ s.resetPending →
    (∃ q, i = .setqual q) ∨ i = .rstbuf ∨ i = .prepare ∨ ∃ sr, i = .init sr
  quality : u.quality ≠ s.quality → (∃ q, i = .setqual q) ∨ ∃ sr, i = .init sr
  bypass : u.bypass ≠ s.bypass → (∃ b, i = .setbyp b) ∨ ∃ sr, i = .init sr
  silence : u.silence ≠ s.silence → (∃ b, i = .setsil b) ∨ ∃ sr, i = .init sr
  params : u.p ≠ s.p → (∃ k v, i = .pset k v) ∨ i = .prepare ∨ ∃ sr, i = .init sr
  prevMode : u.prevMode ≠ s.prevMode → i = .prepare ∨ ∃ sr, i = .init sr
  workspace : u.wsSpace ≠ s.wsSpace ∨ u.wsBase ≠ s.wsBase ∨ u.wsSize ≠ s.wsSize → i = .prepare ∨ ∃ sr, i = .init sr
  pipeline : u.drv ≠ s.drv ∨ u.freezeLp ≠ s.freezeLp ∨ u.dwPrev ≠ s.dwPrev ∨ u.fbbuf ≠ s.fbbuf →
    (∃ size, i = .process size) ∨ ∃ sr, i = .init sr
  engines : u.loopSync ≠ s.loopSync ∨ u.upPrev ≠ s.upPrev ∨ u.grains ≠ s.grains ∨ u.search ≠ s.search ∨
      u.kernels ≠ s.kernels →
    (∃ size, i = .process size) ∨ i = .prepare ∨ ∃ sr, i = .init sr
  svfs : ∀ k : Fin 8, u.svfs[k] ≠ s.svfs[k] →
    i = .svfrst k ∨ (∃ f q, i = .svfset k f q) ∨ (∃ x, i = .svfstep k x) ∨ (∃ size, i = .process size) ∨
      i = .prepare ∨ ∃ sr, i = .init sr
  rings : ∀ k : Fin 2, u.rings[k] ≠ s.rings[k] →
    (∃ sp enc base size, i = .rbinit k sp enc base size) ∨ (∃ al count stride src, i = .rbwf k al count stride src) ∨
      (∃ which size, i = .arena which size) ∨ (∃ size, i = .process size) ∨ i = .prepare ∨ ∃ sr, i = .init sr
  arenas : ∀ sp, (u.arena sp).size ≠ (s.arena sp).size ∨ (u.arena sp).declared ≠ (s.arena sp).declared →
    ∃ size, i = .arena sp size
  inbuf : u.inbuf ≠ s.inbuf → ∃ k l r, i = .framew k l r
  outbuf : u.outbuf ≠ s.outbuf → ∃ size, i = .process size
  draws : u.draws ≠ s.draws → ∃ sp addr, i = .peek sp addr

/-- The effect of each command, as a record update, names what it writes. -/
theorem Completes.writesOnly (hc : Completes s i u) : WritesOnly s i u := by
  cases hc with
  | arena which size =>
    rw [declareArena_eq]
    cases which <;> constructor <;> simp [space_forall, declareArena, State.withArena]
  | init sr => constructor <;> simp [space_forall, initBlock, initRegisters]
  | prepareFull plan =>
    obtain ⟨ml, ms, rs, w, k, e⟩ := background_fullReset_frame s plan
    constructor <;> simp [e, space_forall]
  | prepareLight =>
    obtain ⟨w, k, e⟩ := background_lightReset_frame s
    constructor <;> simp [e, space_forall]
  | prepareNone =>
    obtain ⟨w, k, e⟩ := background_frame s
    constructor <;> simp [e, space_forall]
  | processBlock =>
    obtain ⟨v, ml, ms, rs, g, w, k, b, up, f, o, e⟩ := processBlock_frame s
    constructor <;> simp [e, space_forall]
  | rbinit inst space enc base size =>
    obtain ⟨ml, ms, e⟩ := rbBind_frame s inst space enc base size
    rw [e]
    constructor
    case rings => exact fun k hk => .inl ⟨space, enc, base, size, by rw [eq_of_get_set_ne hk]⟩
    all_goals simp [space_forall]
  | rbwf inst allow count stride src =>
    obtain ⟨ml, ms, q, e⟩ := (rbWrite_written s inst (rbwfSamples s count stride src) allow).record
    rw [e]
    constructor
    case rings => exact fun k hk => .inr (.inl ⟨allow, count, stride, src, by rw [eq_of_get_set_ne hk]⟩)
    all_goals simp [space_forall]
  | svfrst =>
    constructor
    case svfs => exact fun k hk => .inl (by rw [eq_of_get_set_ne hk])
    all_goals simp
  | svfset _ f q =>
    constructor
    case svfs => exact fun k hk => .inr (.inl ⟨f, q, by rw [eq_of_get_set_ne hk]⟩)
    all_goals simp
  | svfstep _ x =>
    constructor
    case svfs => exact fun k hk => .inr (.inr (.inl ⟨x, by rw [eq_of_get_set_ne hk]⟩))
    all_goals simp
  | _ => constructor <;> simp [space_forall]

/-- Settles O21, by the ends of a command and what its effect writes. -/
theorem registersChangeOnlyByTheirCommands : Obligations.RegistersChangeOnlyByTheirCommands := by
  unfold Obligations.RegistersChangeOnlyByTheirCommands
  intro i s t h
  cases exec_ends h with
  | discarded hf r => simp [hf, space_forall]
  | faulted hf c info w => simp [hf]
  | completed hf r hc =>
    obtain ⟨e1, e2, e3, e4, e5, e6, e7, e8⟩ := hc.bookkeeping_eq
    have w := hc.writesOnly
    refine ⟨w.tablesValid, w.inited, w.mode, w.resetPending, fun sp => ?_, ?_, ?_, e7, e8, w.draws, w.inbuf, w.outbuf,
      w.tblSr, w.sr, w.quality, w.bypass, w.silence, w.params, w.prevMode, w.workspace, w.pipeline, w.engines, w.svfs,
      w.rings⟩
    · cases sp
      · exact w.arenas .large
      · exact w.arenas .small
    · simp [e1, e6, hf]
    · simp [e1, e2, e3, e4, e5]

/-- Settles O18: a life-cycle bit that changes is changed by its command (O21), which sets it. -/
theorem lifeCycleBitsAreOnlySet : Obligations.LifeCycleBitsAreOnlySet := by
  unfold Obligations.LifeCycleBitsAreOnlySet
  intro i s t h
  obtain ⟨hTables, hInited, -, -, hArena, -, hFault, -⟩ := registersChangeOnlyByTheirCommands i s t h
  refine ⟨fun hs => ?_, fun hs => ?_, fun hs => ?_, fun sp hs => ?_, fun hs ht => hTables (by simp [hs, ht]),
    fun hs ht => hInited (by simp [hs, ht]), fun sp hs ht => hArena sp (.inr (by simp [hs, ht]))⟩
  · by_contra hn
    obtain ⟨sr, rfl⟩ := hTables fun e => hn (e.trans hs)
    cases exec_ends h with
    | discarded | faulted => exact hn hs
    | completed hf r hc => cases hc; exact hn rfl
  · by_contra hn
    obtain ⟨sr, rfl⟩ := hInited fun e => hn (e.trans hs)
    cases exec_ends h with
    | discarded | faulted => exact hn hs
    | completed hf r hc => cases hc; exact hn rfl
  · by_contra hn
    exact Bool.false_ne_true ((hFault (.inl fun e => hn (e.trans hs))).1.symm.trans hs)
  · by_contra hn
    obtain ⟨size, rfl⟩ := hArena sp (.inr fun e => hn (e.trans hs))
    cases exec_ends h with
    | discarded | faulted => cases sp <;> exact hn hs
    | completed hf r hc => cases hc; cases sp <;> exact hn rfl

/-! ## The mode machine (48_sequencer.md R149) -/

theorem Mode.code_of_ofNat? {n : Nat} {m : Mode} (h : Mode.ofNat? n = some m) : m.code = n := by
  unfold Mode.ofNat? at h
  split at h <;> cases h <;> rfl

/-- The decision of a lightweight reset (48_sequencer.md R151). -/
theorem lightWanted_of_prepareKind (h : prepareKind s = .light) : lightWanted s := by
  unfold prepareKind at h
  unfold lightWanted
  cases hp : s.prevMode with
  | none => simp [hp, benignChange] at h
  | some m =>
    simp [hp, benignChange] at h
    grind

/-- The decision of a `PREPARE` that resets nothing is `Stable` (48_sequencer.md R149, R151). -/
theorem stable_of_prepareKind (h : prepareKind s = .none) : stable s := by
  unfold prepareKind at h
  dsimp only at h
  split at h
  · cases h
  · split at h
    · cases h
    · rename_i h1 h2
      simp at h1 h2
      exact ⟨h1.1, h2⟩

/-- A `SETQUAL` leaves a reset pending where it changes the quality (47_host_commands.md R142). -/
theorem setqual_resetPending {quality : BitVec 8} (h : quality.toNat ≤ 3) (old : BitVec 2) (pending : Bool) :
    (pending || decide (quality.setWidth 2 ≠ old)) = if quality.toNat = old.toNat then pending else true := by
  have hq : quality.setWidth 2 = old ↔ quality.toNat = old.toNat := by
    rw [← BitVec.toNat_inj, BitVec.toNat_setWidth, Nat.mod_eq_of_lt (by omega)]
  by_cases he : quality.toNat = old.toNat
  · simp [he, hq.mpr he]
  · simp [he, hq]

/-- The table of 48_sequencer.md R149: what a command that completes does to PREV_MODE, MODE and RESET_PENDING. -/
def ModeEvent (s u : State) : Instr → Prop
  | .init _ => u.prevMode = none ∧ u.mode = .granular ∧ u.resetPending = true
  | .setmode m => u.prevMode = s.prevMode ∧ u.mode.code = m.toNat ∧ u.resetPending = s.resetPending
  | .setqual q => u.prevMode = s.prevMode ∧ u.mode = s.mode ∧
      u.resetPending = if q.toNat = s.quality.toNat then s.resetPending else true
  | .rstbuf => u.prevMode = s.prevMode ∧ u.mode = s.mode ∧ u.resetPending = true
  | .prepare => u.prevMode = some s.mode ∧ u.mode = s.mode ∧ u.resetPending = false
  | _ => u.prevMode = s.prevMode ∧ u.mode = s.mode ∧ u.resetPending = s.resetPending

theorem Completes.modeEvent (hc : Completes s i u) : ModeEvent s u i := by
  cases hc with
  | arena which size =>
    rw [declareArena_eq]
    exact ⟨rfl, rfl, rfl⟩
  | setmode mode m h => exact ⟨rfl, Mode.code_of_ofNat? h, rfl⟩
  | setqual quality h => exact ⟨rfl, rfl, setqual_resetPending h _ _⟩
  | prepareFull plan =>
    obtain ⟨ml, ms, rs, w, k, e⟩ := background_fullReset_frame s plan
    rw [e]
    exact ⟨rfl, rfl, rfl⟩
  | prepareLight _ kind =>
    obtain ⟨w, k, e⟩ := background_lightReset_frame s
    obtain ⟨hr, -⟩ := lightWanted_of_prepareKind kind
    rw [e]
    exact ⟨rfl, rfl, hr⟩
  | prepareNone _ kind =>
    obtain ⟨w, k, e⟩ := background_frame s
    obtain ⟨hr, hm⟩ := stable_of_prepareKind kind
    rw [e]
    exact ⟨hm, rfl, hr⟩
  | processBlock =>
    obtain ⟨v, ml, ms, rs, g, w, k, b, up, f, o, e⟩ := processBlock_frame s
    rw [e]
    exact ⟨rfl, rfl, rfl⟩
  | rbinit inst space enc base size =>
    obtain ⟨ml, ms, e⟩ := rbBind_frame s inst space enc base size
    rw [e]
    exact ⟨rfl, rfl, rfl⟩
  | rbwf inst allow count stride src =>
    obtain ⟨ml, ms, q, e⟩ := (rbWrite_written s inst (rbwfSamples s count stride src) allow).record
    rw [e]
    exact ⟨rfl, rfl, rfl⟩
  | _ => exact ⟨rfl, rfl, rfl⟩

/-- A command that ends in the faulted state leaves the triple alone. -/
theorem modeTriple_of_fault (h : exec i s = .next t) (ht : t.fault = true) :
    t.prevMode = s.prevMode ∧ t.mode = s.mode ∧ t.resetPending = s.resetPending := by
  cases exec_ends h with
  | discarded | faulted => exact ⟨rfl, rfl, rfl⟩
  | completed hf r hc =>
    obtain ⟨he, -⟩ := hc.bookkeeping_eq
    exact absurd (hf.symm.trans (he.symm.trans ht)) Bool.false_ne_true

/-- The ways into `Stable` (48_sequencer.md R149; log entry 22). -/
theorem Completes.stable_cases (hc : Completes s i u) (hs : ¬ stable s) (hu : stable u) :
    i = .prepare ∨ ∃ m, i = .setmode m ∧ s.resetPending = false := by
  obtain ⟨hr, hp⟩ := hu
  have h := hc.modeEvent
  cases i with
  | prepare => exact .inl rfl
  | setmode m => exact .inr ⟨m, rfl, h.2.2.symm.trans hr⟩
  | init sr | rstbuf =>
    obtain ⟨-, -, h⟩ := h
    exact absurd (h.symm.trans hr) Bool.true_eq_false.mp
  | setqual q =>
    obtain ⟨h1, h2, h3⟩ := h
    rw [h3] at hr
    split at hr
    · exact absurd ⟨hr, by rw [← h1, ← h2, hp]⟩ hs
    · cases hr
  | _ =>
    obtain ⟨h1, h2, h3⟩ := h
    exact absurd ⟨h3.symm.trans hr, by rw [← h1, ← h2, hp]⟩ hs

/-- The gate of `PROCESS` is closed outside `Stable` (48_sequencer.md R158). -/
theorem gated_of_not_stable (h : ¬ stable s) : s.gated = true := by
  unfold stable at h
  simp only [State.gated, Bool.or_eq_true, decide_eq_true_eq]
  grind

/-- Settles O19, by the ends of a command and the table of its effects. -/
theorem modeMachineEvents : Obligations.ModeMachineEvents := by
  unfold Obligations.ModeMachineEvents
  refine ⟨fun i s t hf h ht => ?_, fun i s t h ht => modeTriple_of_fault h ht, fun i s t h hs ht => ?_,
    fun size s t hf hb hs h ht => ?_⟩
  · cases exec_ends h with
    | discarded hf' => exact absurd (hf.symm.trans hf') Bool.false_ne_true
    | faulted => cases ht
    | completed _ _ hc => exact hc.modeEvent
  · cases exec_ends h with
    | discarded | faulted => exact absurd ht hs
    | completed _ _ hc => exact hc.stable_cases hs ht
  · cases exec_ends h with
    | discarded hf' => exact absurd (hf.symm.trans hf') Bool.false_ne_true
    | faulted => cases ht
    | completed _ _ hc =>
      cases hc with
      | processBypass _ hb' => exact absurd (hb.symm.trans hb') Bool.false_ne_true
      | processSilent => rfl
      | processBlock _ _ _ hg => exact absurd (hg.symm.trans (gated_of_not_stable hs)) Bool.false_ne_true

end

end Sys2Proof.Machine
end

section
/-! PROOFS. The register map (10_state.md R18 to R37): what each block of addresses reads. -/

namespace Sys2Proof.Machine

/-! ## Blocks of addresses -/

theorem reg?_param (s : State) (k : Fin 10) : s.reg? (0x020 + k.val) = paramReg? s k.val := by
  have := k.isLt
  rw [State.reg?, if_neg (by omega), if_pos (by omega), Nat.add_sub_cancel_left]

/-- A register of a ring buffer (10_state.md R31). -/
theorem reg?_ring (s : State) (i : Fin 2) {j : Nat} (hj : j < 16) :
    s.reg? (0x040 + 0x10 * i.val + j) = ringReg? s.rings[i] j := by
  obtain ⟨i, hi⟩ := i
  have : i = 0 ∨ i = 1 := by omega
  rcases this with rfl | rfl <;> dsimp only
  · rw [State.reg?, if_neg (by omega), if_neg (by omega), if_neg (by omega), if_pos (by omega),
      show 0x040 + 0x10 * 0 + j - 0x040 = j by omega]
    rfl
  · rw [State.reg?, if_neg (by omega), if_neg (by omega), if_neg (by omega), if_neg (by omega), if_pos (by omega),
      show 0x040 + 0x10 * 1 + j - 0x050 = j by omega]
    rfl

/-- A register of a filter (10_state.md R33). -/
theorem reg?_svf (s : State) (i : Fin 8) {j : Nat} (hj : j < 16) :
    s.reg? (0x080 + 0x10 * i.val + j) = svfReg? s.svfs[i] j := by
  have := i.isLt
  rw [State.reg?, if_neg (by omega), if_neg (by omega), if_neg (by omega), if_neg (by omega), if_neg (by omega),
    if_neg (by omega), dif_pos (by omega)]
  have hi : (0x080 + 0x10 * i.val + j) / 0x10 - 8 = i.val := by omega
  have hj' : (0x080 + 0x10 * i.val + j) % 0x10 = j := by omega
  simp only [hi, hj']
  rfl

/-- A register of a grain slot (10_state.md R34). -/
theorem reg?_slot (s : State) (k : Fin 16) {j : Nat} (hj : j < 8) :
    s.reg? (0x110 + 8 * k.val + j) = slotReg? s.grains.slots[k] j := by
  have := k.isLt
  rw [State.reg?, if_neg (by omega), if_neg (by omega), if_neg (by omega), if_neg (by omega), if_neg (by omega),
    if_neg (by omega), dif_neg (by omega), if_neg (by omega), dif_pos (by omega)]
  have hk : (0x110 + 8 * k.val + j - 0x110) / 8 = k.val := by omega
  have hj' : (0x110 + 8 * k.val + j - 0x110) % 8 = j := by omega
  simp only [hk, hj']
  rfl

/-- A sample of the tail copy (10_state.md R31). -/
theorem ringReg?_tail (r : Ring) (j : Fin 8) : ringReg? r (8 + j.val) = some (r.tail[j].signExtend 32) := by
  fin_cases j <;> rfl

/-! ## Registers of flags -/

theorem bit_getElem (b : Bool) : (bit b)[0] = b := by cases b <;> rfl

/-- The bits of `STATUS` (10_state.md R19). -/
theorem status_bits (s : State) :
    s.status.toNat < 1024 ∧ s.status.getLsbD 0 = s.tablesValid ∧ s.status.getLsbD 1 = s.inited ∧
      s.status.getLsbD 2 = s.resetPending ∧ s.status.getLsbD 3 = s.fault ∧ s.status.getLsbD 4 = s.bypass ∧
      s.status.getLsbD 5 = s.silence ∧ s.status.getLsbD 6 = s.p[9].getLsbD 0 ∧ s.status.getLsbD 7 = s.loopSync ∧
      s.status.getLsbD 8 = s.large.declared ∧ s.status.getLsbD 9 = s.small.declared := by
  refine ⟨?_, ?_, ?_, ?_, ?_, ?_, ?_, ?_, ?_, ?_, ?_⟩
  · simp only [State.status, append_toNat, BitVec.toNat_ofNat]
    omega
  all_goals
    simp only [State.status, State.frozen, BitVec.getLsbD_append]
    simp [bit_getElem]

/-- The bits of `RB_FLAGS` (10_state.md R31). -/
theorem ringFlags_bits (r : Ring) :
    (ringFlags r).toNat < 8 ∧ (ringFlags r).getLsbD 0 = r.bound ∧ ((ringFlags r).getLsbD 1 = true ↔ r.enc = .mulaw8) ∧
      ((ringFlags r).getLsbD 2 = true ↔ r.space = .small) := by
  obtain ⟨bound, enc, space, -⟩ := r
  cases bound <;> cases enc <;> cases space <;> simp [ringFlags] <;> decide

/-- The bits of `WS_CTRL` (10_state.md R35). -/
theorem searchCtrl_bits (w : Search) :
    (searchCtrl w).toNat < 4 ∧ (searchCtrl w).getLsbD 0 = w.pending ∧ (searchCtrl w).getLsbD 1 = w.done := by
  obtain ⟨pending, done, -⟩ := w
  cases pending <;> cases done <;> simp [searchCtrl] <;> decide

theorem activeMask_succ (k : Nat) (xs : List GrainSlot) : activeMask (k + 1) xs = 2 * activeMask k xs := by
  induction xs generalizing k with
  | nil => rfl
  | cons g rest ih =>
    simp only [activeMask, ih, Nat.mul_add]
    split <;> simp [Nat.pow_succ, Nat.mul_comm]

/-- The mask of a list is its head's flag below the mask of its tail. -/
theorem activeMask_cons (g : GrainSlot) (rest : List GrainSlot) :
    activeMask 0 (g :: rest) = Nat.bit g.active (activeMask 0 rest) := by
  rw [activeMask, activeMask_succ, Nat.bit_val]
  cases g.active <;> simp [Nat.add_comm]

theorem activeMask_lt (xs : List GrainSlot) : activeMask 0 xs < 2 ^ xs.length := by
  induction xs with
  | nil => simp [activeMask]
  | cons g rest ih => simpa [activeMask_cons, Nat.bit_lt_two_pow_succ_iff] using ih

/-- Bit `j` of the mask is the flag of slot `j` (10_state.md R34). -/
theorem activeMask_testBit (xs : List GrainSlot) (j : Nat) (h : j < xs.length) :
    (activeMask 0 xs).testBit j = xs[j].active := by
  induction xs generalizing j with
  | nil => simp at h
  | cons g rest ih =>
    rw [activeMask_cons]
    cases j with
    | zero => simp
    | succ j => simpa [Nat.testBit_bit_succ] using ih j (by simpa using h)

/-- `GR_ACTIVE_MASK` (10_state.md R34). -/
theorem activeMask_bits (g : GrainPool) :
    (BitVec.ofNat 32 (activeMask 0 g.slots.toList)).toNat < 65536 ∧
      ∀ k : Fin 16, (BitVec.ofNat 32 (activeMask 0 g.slots.toList)).getLsbD k.val = g.slots[k].active := by
  have hlt : activeMask 0 g.slots.toList < 65536 := by simpa [Config.maxGrains] using activeMask_lt g.slots.toList
  refine ⟨by rw [BitVec.toNat_ofNat]; omega, fun k => ?_⟩
  rw [BitVec.getLsbD_ofNat, activeMask_testBit _ _ (by simp)]
  simp [show k.val < 32 by omega]

/-! ## The map -/

theorem zextWord_bit (b : Bool) : zextWord (bit b) = if b then 1 else 0 := by cases b <;> rfl

/-- The registers of both ring buffers (10_state.md R31). -/
theorem ring_registers (s : State) (i : Fin 2) :
    (∃ v, s.reg? (0x040 + 0x10 * i.val) = some v ∧ v.toNat < 8 ∧ v.getLsbD 0 = s.rings[i].bound ∧
        (v.getLsbD 1 = true ↔ s.rings[i].enc = .mulaw8) ∧ (v.getLsbD 2 = true ↔ s.rings[i].space = .small)) ∧
      s.reg? (0x041 + 0x10 * i.val) = some (s.rings[i].base.setWidth 32) ∧
      s.reg? (0x042 + 0x10 * i.val) = some (s.rings[i].size.setWidth 32) ∧
      s.reg? (0x043 + 0x10 * i.val) = some (s.rings[i].n.setWidth 32) ∧
      s.reg? (0x044 + 0x10 * i.val) = some (s.rings[i].wcur.setWidth 32) ∧
      s.reg? (0x045 + 0x10 * i.val) = some (s.rings[i].fade.setWidth 32) ∧
      ∀ j : Fin 8, s.reg? (0x048 + 0x10 * i.val + j.val) = some (s.rings[i].tail[j].signExtend 32) := by
  have at_ {a j : Nat} (ha : a = 0x040 + 0x10 * i.val + j) (hj : j < 16) : s.reg? a = ringReg? s.rings[i] j :=
    ha ▸ reg?_ring s i hj
  refine ⟨⟨_, at_ (j := 0) rfl (by omega), ringFlags_bits _⟩, at_ (j := 1) (by omega) (by omega),
    at_ (j := 2) (by omega) (by omega), at_ (j := 3) (by omega) (by omega), at_ (j := 4) (by omega) (by omega),
    at_ (j := 5) (by omega) (by omega), fun j => ?_⟩
  rw [at_ (j := 8 + j.val) (by omega) (by omega), ringReg?_tail]

/-- Settles O28, block of addresses by block of addresses. -/
theorem registerMapReads : Obligations.RegisterMapReads := by
  unfold Obligations.RegisterMapReads
  intro s
  have svf {i : Fin 8} {a j : Nat} (ha : a = 0x080 + 0x10 * i.val + j) (hj : j < 16) : s.reg? a = svfReg? s.svfs[i] j :=
    ha ▸ reg?_svf s i hj
  have slot {k : Fin 16} {a j : Nat} (ha : a = 0x110 + 8 * k.val + j) (hj : j < 8) :
      s.reg? a = slotReg? s.grains.slots[k] j := ha ▸ reg?_slot s k hj
  refine ⟨rfl, ⟨_, rfl, status_bits s⟩, rfl, ?_, rfl, rfl, rfl, rfl, rfl, rfl, rfl, rfl, rfl, rfl, rfl, rfl, rfl, rfl, rfl,
    rfl, rfl, ?_, ?_, fun k hk => ?_, rfl, rfl, rfl, ?_, rfl, rfl, rfl, rfl, rfl, rfl, ring_registers s, fun i => ?_, rfl,
    rfl, ⟨_, rfl, activeMask_bits s.grains⟩, fun k => ?_, ⟨_, rfl, searchCtrl_bits s.search⟩, rfl, rfl, rfl, rfl⟩
  · show some (BitVec.ofNat 32 (prevModeCode s.prevMode)) = _
    cases s.prevMode <;> rfl
  · show some (BitVec.ofNat 32 (if s.quality.getLsbD 1 then 8 else 16)) = _
    split <;> rfl
  · show some (BitVec.ofNat 32 (if s.quality.getLsbD 0 then 1 else 2)) = _
    split <;> rfl
  · have hk' : k.val ≠ 2 := fun e => hk (Fin.ext e)
    rw [reg?_param, paramReg?, dif_pos k.isLt, if_neg hk']
    rfl
  · exact congrArg some (zextWord_bit s.drv.det)
  · exact ⟨svf (j := 0) (by omega) (by omega), svf (j := 1) (by omega) (by omega), svf (j := 2) (by omega) (by omega),
      svf (j := 3) (by omega) (by omega), svf (j := 4) (by omega) (by omega), svf (j := 5) (by omega) (by omega),
      svf (j := 6) (by omega) (by omega), svf (j := 7) (by omega) (by omega), svf (j := 8) (by omega) (by omega),
      svf (j := 9) (by omega) (by omega), svf (j := 10) (by omega) (by omega), svf (j := 11) (by omega) (by omega),
      svf (j := 12) (by omega) (by omega)⟩
  · refine ⟨?_, slot (j := 1) (by omega) (by omega), slot (j := 2) (by omega) (by omega),
      slot (j := 3) (by omega) (by omega), slot (j := 4) (by omega) (by omega), slot (j := 5) (by omega) (by omega),
      slot (j := 6) (by omega) (by omega), slot (j := 7) (by omega) (by omega)⟩
    rw [slot (k := k) (j := 0) (by omega) (by omega), slotReg?, zextWord_bit]

end Sys2Proof.Machine
end

section
/-! PROOFS. The stored ranges of 10_state.md: parameters, derived parameters, filter coefficients, search registers and playing
grains. For each: what the operations that write the register leave, then every effect, then every step. -/

namespace Sys2Proof.Machine

/-- A right shift of an integer is the floor of its quotient by a power of two (00_scope.md R11); `Int.shiftRight_eq_div_pow` says
so of a shift by a natural number. -/
theorem shr_ofNat (m : Int) (n : Nat) [n.AtLeastTwo] : m >>> (ofNat(n) : Int) = m / ((2 ^ n : Nat) : Int) :=
  (Int.shiftRight_natCast_right m n).trans (Int.shiftRight_eq_div_pow m n)

/-! ## Parameters and pipeline registers (10_state.md R27, R37) -/

theorem ParamsOk.congr {s t : State} (h : ParamsOk s) (hp : t.p = s.p) (hf : t.freezeLp = s.freezeLp)
    (hd : t.dwPrev = s.dwPrev) : ParamsOk t := by
  obtain ⟨unit, pitch, flags, freezeLp, dwPrev⟩ := h
  constructor <;> simpa only [hp, hf, hd]

theorem toInt_toHalf {v : Int} (h1 : -32768 ≤ v) (h2 : v ≤ 32767) : (toHalf v).toInt = v := by
  rw [toHalf, BitVec.toInt_ofInt]
  exact Int.bmod_eq_of_le (by norm_num; omega) (by norm_num; omega)

theorem toNat_toHalf {v : Int} (h1 : 0 ≤ v) (h2 : v < 65536) : (toHalf v).toNat = v.toNat := by
  rw [toHalf, BitVec.toNat_ofInt]
  congr 1
  exact Int.emod_eq_of_lt h1 (by norm_num; omega)

theorem paramValue_unit {index : Nat} (h2 : index ≠ 2) (h9 : index ≠ 9) (value : Half) :
    (paramValue index value).toNat ≤ 32768 := by
  rw [paramValue, if_neg h2, if_neg h9]
  split
  · assumption
  · decide

theorem paramValue_pitch (value : Half) :
    -12288 ≤ (paramValue 2 value).toInt ∧ (paramValue 2 value).toInt ≤ 12288 := by
  have hc : -12288 ≤ clamp value.toInt (-12288) 12288 ∧ clamp value.toInt (-12288) 12288 ≤ 12288 := by
    unfold clamp
    omega
  rw [paramValue, if_pos rfl]
  rwa [toInt_toHalf (by omega) (by omega)]

theorem paramValue_flags (value : Half) : (paramValue 9 value).toNat ≤ 7 := by
  rw [paramValue, if_neg (by decide), if_pos rfl, BitVec.toNat_and]
  exact Nat.and_le_right

/-- `PSET` stores a value of its register's range (47_host_commands.md R140). -/
theorem paramsOk_pset {s : State} (h : ParamsOk s) (index : Nat) (value : Half) (hi : index < 10) :
    ParamsOk { s with p := s.p.set index (paramValue index value) hi } := by
  obtain ⟨unit, pitch, flags, freezeLp, dwPrev⟩ := h
  refine ⟨fun k h2 h9 => ?_, ?_, ?_, freezeLp, dwPrev⟩
  · by_cases hk : index = k.val
    · subst hk
      simpa using paramValue_unit (fun e => h2 (Fin.ext e)) (fun e => h9 (Fin.ext e)) value
    · simpa [Vector.getElem_set_ne _ _ hk] using unit k h2 h9
  · by_cases hk : index = 2
    · subst hk
      simpa using paramValue_pitch value
    · simpa [Vector.getElem_set_ne _ _ hk] using pitch
  · by_cases hk : index = 9
    · subst hk
      simpa using paramValue_flags value
    · simpa [Vector.getElem_set_ne _ _ hk] using flags

/-- The state a full re-partition carves: bit 0 of the flags is cleared (48_sequencer.md R152). -/
def State.thaw (s : State) : State := { s with p := s.p.set 9 (s.p[9] &&& 0xFFFE) }

theorem paramsOk_thaw {s : State} (h : ParamsOk s) : ParamsOk s.thaw := by
  obtain ⟨unit, pitch, flags, freezeLp, dwPrev⟩ := h
  refine ⟨fun k h2 h9 => ?_, ?_, ?_, freezeLp, dwPrev⟩
  · have : (9 : Nat) ≠ k.val := fun e => h9 (Fin.ext e.symm)
    simpa [State.thaw, Vector.getElem_set_ne _ _ this] using unit k h2 h9
  · simpa [State.thaw] using pitch
  · have : (s.p[9] &&& 0xFFFE).toNat ≤ s.p[9].toNat := by
      rw [BitVec.toNat_and]
      exact Nat.and_le_left
    simpa [State.thaw] using this.trans flags

/-- The freeze follower stays in its range (48_sequencer.md R160). -/
theorem freezeFollow_le (frozen : Bool) {lp : Half} (h : lp.toNat ≤ 32768) : (freezeFollow frozen lp).toNat ≤ 32768 := by
  have hd : Config.frzDiv = 16 := rfl
  have ht : 0 ≤ (if frozen then 32768 else 0 : Int) ∧ (if frozen then 32768 else 0 : Int) ≤ 32768 := by
    cases frozen <;> decide
  unfold freezeFollow
  dsimp only
  rw [hd]
  generalize (if frozen then 32768 else 0 : Int) = target at ht ⊢
  split
  · rw [toNat_toHalf] <;> omega
  · split
    · rw [toNat_toHalf] <;> omega
    · exact h

theorem paramsOk_processBlock {s : State} (h : ParamsOk s) : ParamsOk (processBlock s) := by
  obtain ⟨v, ml, ms, rs, g, w, k, b, up, f, o, e⟩ := processBlock_frame s
  rw [e]
  exact ⟨h.unit, h.pitch, h.flags, freezeFollow_le _ h.freezeLp, h.unit 5 (by decide) (by decide)⟩

theorem paramsOk_reset (hw : HwParams) : ParamsOk (State.resetFor hw) := by
  have hp (k : Fin 10) : (State.resetFor hw).p[k] = 0 := by simp [State.resetFor]
  have h2 : (State.resetFor hw).p[2] = 0 := hp 2
  have h9 : (State.resetFor hw).p[9] = 0 := hp 9
  refine ⟨fun k _ _ => by rw [hp k]; decide, by rw [h2]; decide, by rw [h9]; decide, Nat.zero_le _, Nat.zero_le _⟩

section

variable {s u : State} {i : Instr}

theorem Completes.paramsOk (hc : Completes s i u) (h : ParamsOk s) : ParamsOk u := by
  cases hc with
  | pset index value hi => exact paramsOk_pset h index.toNat value hi
  | init sr => exact (paramsOk_reset s.hw).congr rfl rfl rfl
  | prepareFull plan =>
    obtain ⟨ml, ms, rs, w, k, e⟩ := background_fullReset_frame s plan
    rw [e]
    exact (paramsOk_thaw h).congr rfl rfl rfl
  | prepareLight =>
    obtain ⟨w, k, e⟩ := background_lightReset_frame s
    exact h.congr (by rw [e]) (by rw [e]) (by rw [e])
  | prepareNone =>
    obtain ⟨w, k, e⟩ := background_frame s
    exact h.congr (by rw [e]) (by rw [e]) (by rw [e])
  | processBlock => exact paramsOk_processBlock h
  | arena which size =>
    rw [declareArena_eq]
    exact h.congr rfl rfl rfl
  | rbinit inst space enc base size =>
    obtain ⟨ml, ms, e⟩ := rbBind_frame s inst space enc base size
    exact h.congr (by rw [e]) (by rw [e]) (by rw [e])
  | rbwf inst allow count stride src =>
    obtain ⟨ml, ms, q, e⟩ := (rbWrite_written s inst (rbwfSamples s count stride src) allow).record
    exact h.congr (by rw [e]) (by rw [e]) (by rw [e])
  | _ => exact h.congr rfl rfl rfl

/-- Settles O11, by the induction over a step. -/
theorem stepKeepsParameterRanges : Obligations.StepKeepsParameterRanges := by
  unfold Obligations.StepKeepsParameterRanges
  intro s t h
  exact step_keeps (fun _ _ _ _ _ _ _ _ _ _ h => h.congr rfl rfl rfl) paramsOk_reset (fun _ _ _ h hc => hc.paramsOk h) h

/-! ## Derived parameters (10_state.md R30) -/

theorem deriveOverlap_range {dens : Nat} (h : dens ≤ 32768) :
    32768 ≤ deriveOverlap dens ∧ deriveOverlap dens ≤ 262144 := by
  unfold deriveOverlap
  dsimp only
  generalize hd : ((dens : Int) - 16384).natAbs * 2 = d
  have hd' : d ≤ 32768 := by omega
  have hm : d * d ≤ 32768 * 32768 := Nat.mul_le_mul hd' hd'
  simp only [Nat.shiftRight_eq_div_pow, Config.grMaxOverlap]
  omega

theorem deriveShape_le (tex : Nat) : deriveShape tex ≤ 32768 := by
  unfold deriveShape
  split <;> omega

theorem deriveDiff_le (mode : Mode) {tex dens : Nat} (ht : tex ≤ 32768) (hd : dens ≤ 32768) :
    deriveDiff mode tex dens ≤ 32768 := by
  unfold deriveDiff
  split
  · split <;> omega
  · exact hd

theorem deriveRefresh_range {dens : Nat} (h : dens ≤ 32768) : 328 ≤ deriveRefresh dens ∧ deriveRefresh dens ≤ 32768 := by
  unfold deriveRefresh
  rw [Nat.shiftRight_eq_div_pow]
  omega

theorem deriveWarp_range {size : Nat} (h : size ≤ 32768) : 0 ≤ deriveWarp size ∧ deriveWarp size ≤ 32768 := by
  unfold deriveWarp
  dsimp only
  generalize hx : (size : Int) - 16384 = x
  simp only [shr_ofNat, Int.shiftRight_eq_div_pow]
  have h1 : 0 ≤ x * x / (2 ^ 15 : Nat) ∧ x * x / (2 ^ 15 : Nat) ≤ 8192 := by
    have h0 := mul_self_nonneg x
    have h2 : x * x ≤ 16384 * 16384 := by nlinarith
    norm_num
    omega
  obtain ⟨h1, h2⟩ := h1
  generalize x * x / (2 ^ 15 : Nat) = y at *
  have h3 : -(8192 * 16384) ≤ y * x ∧ y * x ≤ 8192 * 16384 := by constructor <;> nlinarith
  norm_num
  omega

theorem derivePhrand_range (dens : Nat) : 0 ≤ derivePhrand dens ∧ derivePhrand dens ≤ 32768 := by
  unfold derivePhrand clamp
  dsimp only
  omega

theorem deriveReverb_le (reverb fb lp : Nat) : deriveReverb reverb fb lp ≤ 32768 := Nat.min_le_right _ _

/-- The derived parameters of parameters in range are in range (44_grain.md R111, 46_spectral.md R130, 48_sequencer.md R162,
R170). -/
theorem derivedOk_derived (h : ParamsOk s) : DerivedOk (derived s) := by
  have hdens : s.p[3].toNat ≤ 32768 := h.unit 3 (by decide) (by decide)
  have htex : s.p[4].toNat ≤ 32768 := h.unit 4 (by decide) (by decide)
  have hsize : s.p[1].toNat ≤ 32768 := h.unit 1 (by decide) (by decide)
  obtain ⟨ho, ho'⟩ := deriveOverlap_range hdens
  have hs := deriveShape_le s.p[4].toNat
  have hd := deriveDiff_le s.mode htex hdens
  obtain ⟨hr, hr'⟩ := deriveRefresh_range hdens
  obtain ⟨hw, hw'⟩ := deriveWarp_range hsize
  obtain ⟨hp, hp'⟩ := derivePhrand_range s.p[3].toNat
  have hv := deriveReverb_le s.p[8].toNat s.p[7].toNat s.freezeLp.toNat
  right
  simp only [derived, BitVec.toNat_ofNat]
  rw [toNat_toHalf hw (by omega), toNat_toHalf hp (by omega)]
  omega

/-- The derived parameters are written by `INIT` and `PROCESS` (10_state.md R30). -/
theorem Completes.derivedOk (hc : Completes s i u) (hp : ParamsOk s) (h : DerivedOk s.drv) : DerivedOk u.drv := by
  by_cases he : u.drv = s.drv
  · rwa [he]
  · rcases hc.writesOnly.pipeline (.inl he) with ⟨size, rfl⟩ | ⟨sr, rfl⟩
    · cases hc with
      | processBypass | processSilent => exact h
      | processBlock =>
        obtain ⟨v, ml, ms, rs, g, w, k, b, up, f, o, e⟩ := processBlock_frame s
        rw [e]
        exact derivedOk_derived ⟨hp.unit, hp.pitch, hp.flags, freezeFollow_le _ hp.freezeLp, hp.dwPrev⟩
    · cases hc
      exact .inl rfl

/-- Settles O12, by the induction over a step. -/
theorem stepKeepsDerivedRanges : Obligations.StepKeepsDerivedRanges := by
  unfold Obligations.StepKeepsDerivedRanges
  intro s t hp hd hst
  have h : ParamsOk t ∧ DerivedOk t.drv :=
    step_keeps (P := fun s => ParamsOk s ∧ DerivedOk s.drv)
      (fun _ _ _ _ _ _ _ _ _ _ h => ⟨h.1.congr rfl rfl rfl, h.2⟩) (fun hw => ⟨paramsOk_reset hw, .inl rfl⟩)
      (fun _ _ _ h hc => ⟨hc.paramsOk h.1, hc.derivedOk h.1 h.2⟩) ⟨hp, hd⟩ hst
  exact h.2

end

end Sys2Proof.Machine
end

section
/-! PROOFS. The ranges of the filter coefficients (10_state.md R33), the search registers (45_wsola.md R128) and the playing grains
(10_state.md R34) after every effect and every step. -/

namespace Sys2Proof.Machine

/-! ## Filter coefficients (42_svf.md R97 to R101) -/

/-- The coefficients of a filter do not depend on its signal state. -/
theorem SvfOk.congr {v w : Svf} (h : SvfOk v) (hg : w.g = v.g) (hr : w.r = v.r) (hh : w.h = v.h) (hf : w.f = v.f)
    (hq : w.q = v.q) : SvfOk w := by
  obtain ⟨g, r, h, f, q⟩ := h
  constructor <;> simpa only [hg, hr, hh, hf, hq]

theorem svfOk_clear {v : Svf} (h : SvfOk v) : SvfOk (svfClear v) := h.congr rfl rfl rfl rfl rfl

theorem svfOk_step {v : Svf} (h : SvfOk v) (x : Int) : SvfOk (svfStep v x) := h.congr rfl rfl rfl rfl rfl

theorem svfTan_mono {f f' : Nat} (h : f ≤ f') : svfTan f ≤ svfTan f' := by
  unfold svfTan
  simp only [Nat.shiftRight_eq_div_pow]
  gcongr

theorem svfTan_le {f : Nat} (h : f ≤ Config.fMax) : svfTan f ≤ 269617 := svfTan_mono h

/-- The reciprocal of a clamped Q (42_svf.md R99). -/
theorem svfR_range {q : Nat} (h1 : Config.qMin ≤ q) (h2 : q ≤ Config.qMax) : 256 ≤ 2 ^ 32 / q ∧ 2 ^ 32 / q ≤ 131072 := by
  unfold Config.qMin at h1
  unfold Config.qMax at h2
  exact ⟨(Nat.le_div_iff_mul_le (by omega)).mpr (by omega), Nat.div_le_of_le_mul (by omega)⟩

/-- The third coefficient for a tangent and a reciprocal in range (42_svf.md R99). -/
theorem svfH_range {g r : Nat} (hg : g ≤ 269617) (hr : r ≤ 131072) :
    2505 ≤ 2 ^ 32 / (65536 + ((r * g) >>> 16) + ((g * g) >>> 16)) ∧
      2 ^ 32 / (65536 + ((r * g) >>> 16) + ((g * g) >>> 16)) ≤ 65536 := by
  have h1 : r * g ≤ 131072 * 269617 := Nat.mul_le_mul hr hg
  have h2 : g * g ≤ 269617 * 269617 := Nat.mul_le_mul hg hg
  simp only [Nat.shiftRight_eq_div_pow]
  exact ⟨(Nat.le_div_iff_mul_le (by omega)).mpr (by omega), Nat.div_le_of_le_mul (by omega)⟩

/-- `SVF_SET` leaves coefficients in range, whatever its operands (42_svf.md R99). -/
theorem svfOk_set (v : Svf) (f q : Nat) : SvfOk (svfSet v f q) := by
  have hf : min f Config.fMax ≤ Config.fMax := Nat.min_le_right _ _
  have hq : Config.qMin ≤ clampNat q Config.qMin Config.qMax ∧ clampNat q Config.qMin Config.qMax ≤ Config.qMax := by
    unfold clampNat Config.qMin Config.qMax
    omega
  have hg := svfTan_le hf
  obtain ⟨hr1, hr2⟩ := svfR_range hq.1 hq.2
  obtain ⟨hh1, hh2⟩ := svfH_range hg hr2
  have hm : Config.fMax = 32702 := rfl
  have hM : Config.qMax = 16777215 := rfl
  refine ⟨?_, ?_, ?_, ?_, ?_⟩ <;> simp only [svfSet, BitVec.toNat_ofNat]
  · rwa [Nat.mod_eq_of_lt (by omega)]
  · rw [Nat.mod_eq_of_lt (by omega)]
    exact ⟨hr1, hr2⟩
  · rw [Nat.mod_eq_of_lt (by omega)]
    exact ⟨hh1, hh2⟩
  · rwa [Nat.mod_eq_of_lt (by omega)]
  · rwa [Nat.mod_eq_of_lt (by omega)]

/-- Writing a filter in range leaves all in range. -/
theorem svfsOk_set {v : Vector Svf 8} (h : ∀ i : Fin 8, SvfOk v[i]) (k : Fin 8) {w : Svf} (hw : SvfOk w) :
    ∀ i : Fin 8, SvfOk (v.set k w)[i] := by
  intro i
  by_cases hk : k.val = i.val
  · simpa [hk] using hw
  · simpa [Vector.getElem_set_ne _ _ hk] using h i

theorem svfsOk_clearAll {v : Vector Svf 8} (h : ∀ i : Fin 8, SvfOk v[i]) : ∀ i : Fin 8, SvfOk (clearAllSvf v)[i] := by
  intro i
  simpa [clearAllSvf] using svfOk_clear (h i)

theorem svfsOk_reset (hw : HwParams) : ∀ i : Fin 8, SvfOk (State.resetFor hw).svfs[i] := by
  intro i
  have : (State.resetFor hw).svfs[i] = Svf.atReset := by simp [State.resetFor]
  rw [this]
  constructor <;> decide

theorem feedbackBlock_svfOk (gain : Int) {vl vr : Svf} (hl : SvfOk vl) (hr : SvfOk vr) (fs ws : List Frame) :
    SvfOk (feedbackBlock gain vl vr fs ws).1 ∧ SvfOk (feedbackBlock gain vl vr fs ws).2.1 := by
  induction fs generalizing vl vr ws with
  | nil => exact ⟨hl, hr⟩
  | cons f fs ih =>
    cases ws with
    | nil => exact ⟨hl, hr⟩
    | cons w ws => exact ih (svfOk_step hl _) (svfOk_step hr _) ws

theorem decimateBlock_svfOk {vl vr : Svf} (hl : SvfOk vl) (hr : SvfOk vr) (ws : List Frame) :
    SvfOk (decimateBlock vl vr ws).1 ∧ SvfOk (decimateBlock vl vr ws).2.1 := by
  fun_induction decimateBlock with
  | case1 vl vr f g rest l r more ih => exact ih (svfOk_step (svfOk_step hl _) _) (svfOk_step (svfOk_step hr _) _)
  | case2 => exact ⟨hl, hr⟩

theorem toneChannel_svfOk {lp hp : Svf} (hl : SvfOk lp) (hh : SvfOk hp) (xs : List Half) :
    SvfOk (toneChannel lp hp xs).1 ∧ SvfOk (toneChannel lp hp xs).2.1 := by
  induction xs generalizing lp hp with
  | nil => exact ⟨hl, hh⟩
  | cons x xs ih => exact ih (svfOk_step hl _) (svfOk_step hh _)

theorem feedbackStage_svfOk (s : State) (w : List Frame) (h : ∀ i : Fin 8, SvfOk s.svfs[i]) :
    ∀ i : Fin 8, SvfOk (feedbackStage s w).1.svfs[i] := by
  obtain ⟨h0, h1⟩ := feedbackBlock_svfOk (feedbackGain s.p[7] (freezeFollow s.frozen s.freezeLp))
    (svfOk_set s.svfs[0] (feedbackCutoff s.sr) 65536) (svfOk_set s.svfs[1] (feedbackCutoff s.sr) 65536)
    (blockOf s.blockSize s.fbbuf).toList w
  exact svfsOk_set (svfsOk_set h 0 h0) 1 h1

theorem decimateStage_svfOk (s : State) (w : List Frame) (h : ∀ i : Fin 8, SvfOk s.svfs[i]) :
    ∀ i : Fin 8, SvfOk (decimateStage s w).1.svfs[i] := by
  unfold decimateStage
  split
  · obtain ⟨h2, h3⟩ := decimateBlock_svfOk (svfOk_set s.svfs[2] Config.fidF Config.fidQ)
      (svfOk_set s.svfs[3] Config.fidF Config.fidQ) w
    exact svfsOk_set (svfsOk_set h 2 h2) 3 h3
  · exact h

theorem toneStage_svfOk {n : Nat} (s : State) (u : Vector Frame n) (h : ∀ i : Fin 8, SvfOk s.svfs[i]) :
    ∀ i : Fin 8, SvfOk (toneStage s u).1.svfs[i] := by
  unfold toneStage
  split
  · obtain ⟨h4, h6⟩ := toneChannel_svfOk
      (svfOk_set s.svfs[4] (toneLowPass s.p[4].toNat) (toneQ s.p[7].toNat (toneLowPass s.p[4].toNat)))
      (svfOk_set s.svfs[6] (toneHighPass s.p[4].toNat) 65536) (u.toList.map (·.l))
    obtain ⟨h5, h7⟩ := toneChannel_svfOk
      (svfOk_set s.svfs[5] (toneLowPass s.p[4].toNat) (toneQ s.p[7].toNat (toneLowPass s.p[4].toNat)))
      (svfOk_set s.svfs[7] (toneHighPass s.p[4].toNat) 65536) (u.toList.map (·.r))
    exact svfsOk_set (svfsOk_set (svfsOk_set (svfsOk_set h 4 h4) 5 h5) 6 h6) 7 h7
  · exact h

/-- The filters of steps 3 to 6a. -/
theorem processInput_svfOk (s : State) (h : ∀ i : Fin 8, SvfOk s.svfs[i]) :
    ∀ i : Fin 8, SvfOk (processInput s).1.svfs[i] := by
  simp only [processInput, deriveStage]
  exact decimateStage_svfOk _ _ (feedbackStage_svfOk s _ h)

/-- The filters of steps 7 to 12. -/
theorem processEffects_svfOk {n : Nat} (s : State) (u : Vector Frame n) (h : ∀ i : Fin 8, SvfOk s.svfs[i]) :
    ∀ i : Fin 8, SvfOk (processEffects s u).svfs[i] := by
  simp only [processEffects, reverbStage, mixStage]
  refine toneStage_svfOk _ _ ?_
  rw [pitchStage_eq, diffuseStage_eq]
  exact h

theorem processBlock_svfOk (s : State) (h : ∀ i : Fin 8, SvfOk s.svfs[i]) :
    ∀ i : Fin 8, SvfOk (processBlock s).svfs[i] := by
  refine processEffects_svfOk _ _ ?_
  rw [processPlay_eq]
  exact processInput_svfOk s h

section

variable {s u : State} {i : Instr}

/-- Every effect leaves filter coefficients in range: a filter it writes is set, stepped or cleared. -/
theorem Completes.svfsOk (hc : Completes s i u) (h : ∀ i : Fin 8, SvfOk s.svfs[i]) : ∀ i : Fin 8, SvfOk u.svfs[i] := by
  intro k
  by_cases he : u.svfs[k] = s.svfs[k]
  · rw [he]
    exact h k
  · rcases hc.writesOnly.svfs k he with rfl | ⟨f, q, rfl⟩ | ⟨x, rfl⟩ | ⟨size, rfl⟩ | rfl | ⟨sr, rfl⟩
    · cases hc
      exact svfsOk_set h k (svfOk_clear (h k)) k
    · cases hc
      exact svfsOk_set h k (svfOk_set _ _ _) k
    · cases hc
      exact svfsOk_set h k (svfOk_step (h k) _) k
    · cases hc with
      | processBypass | processSilent => exact h k
      | processBlock => exact processBlock_svfOk s h k
    · cases hc with
      | prepareFull plan =>
        obtain ⟨ml, ms, rs, w, q, e⟩ := background_fullReset_frame s plan
        rw [e]
        exact svfsOk_clearAll h k
      | prepareLight =>
        obtain ⟨w, q, e⟩ := background_lightReset_frame s
        rw [e]
        exact svfsOk_clearAll h k
      | prepareNone =>
        obtain ⟨w, q, e⟩ := background_frame s
        rw [e]
        exact h k
    · cases hc
      exact svfsOk_clearAll h k

/-- Settles O14, by the induction over a step. -/
theorem stepKeepsFilterRanges : Obligations.StepKeepsFilterRanges := by
  unfold Obligations.StepKeepsFilterRanges
  intro s t h
  exact step_keeps (P := fun s => ∀ i : Fin 8, SvfOk s.svfs[i]) (fun _ _ _ _ _ _ _ _ _ _ h => h) svfsOk_reset
    (fun _ _ _ h hc => hc.svfsOk h) h

end

/-! ## Search registers (45_wsola.md R125 to R128) -/

theorem searchOk_idle : SearchOk Search.idle := by
  constructor <;> decide

/-- One candidate of a search that runs (45_wsola.md R127). -/
theorem searchCandidate_spec (score : Half → Word) {w : Search} (hlt : w.candIdx.toNat < w.candCount.toNat)
    (hb : w.bestOffset.toNat < max 1 w.candCount.toNat) :
    (searchCandidate score w).candIdx.toNat = w.candIdx.toNat + 1 ∧
      (searchCandidate score w).candCount = w.candCount ∧ (searchCandidate score w).pending = w.pending ∧
      (searchCandidate score w).done = w.done ∧
      (searchCandidate score w).bestOffset.toNat < max 1 w.candCount.toNat := by
  have hn : (w.candIdx + 1).toNat = w.candIdx.toNat + 1 := by
    have := w.candCount.isLt
    rw [BitVec.toNat_add]
    exact Nat.mod_eq_of_lt (show w.candIdx.toNat + 1 < 65536 by omega)
  unfold searchCandidate
  dsimp only
  split
  · exact ⟨hn, rfl, rfl, rfl, by dsimp only; omega⟩
  · exact ⟨hn, rfl, rfl, rfl, hb⟩

/-- A number of candidates of a search that runs (45_wsola.md R127). -/
theorem searchCandidates_spec (score : Half → Word) (k : Nat) {w : Search}
    (hle : w.candIdx.toNat + k ≤ w.candCount.toNat) (hb : w.bestOffset.toNat < max 1 w.candCount.toNat) :
    (searchCandidates score k w).candIdx.toNat = w.candIdx.toNat + k ∧
      (searchCandidates score k w).candCount = w.candCount ∧ (searchCandidates score k w).pending = w.pending ∧
      (searchCandidates score k w).done = w.done ∧
      (searchCandidates score k w).bestOffset.toNat < max 1 w.candCount.toNat := by
  induction k generalizing w with
  | zero => exact ⟨rfl, rfl, rfl, rfl, hb⟩
  | succ k ih =>
    obtain ⟨h1, h2, h3, h4, h5⟩ := searchCandidate_spec score (w := w) (by omega) hb
    obtain ⟨k1, k2, k3, k4, k5⟩ := ih (w := searchCandidate score w) (by rw [h1, h2]; omega) (by rwa [h2])
    exact ⟨by rw [searchCandidates, k1, h1]; omega, k2.trans h2, k3.trans h3, k4.trans h4, by rw [h2] at k5; exact k5⟩

/-- The background step of a `PREPARE` keeps the search registers in order, at any number of candidates (45_wsola.md R127). -/
theorem searchOk_step (per : Nat) (score : Half → Word) {w : Search} (h : SearchOk w) : SearchOk (searchStep per score w) := by
  unfold searchStep
  split
  · rename_i hp
    have hlt := h.unfinished hp
    have hd : w.done = false := by
      have := h.exclusive
      simpa [hp] using this
    obtain ⟨h1, h2, h3, h4, h5⟩ :=
      searchCandidates_spec score (min per (w.candCount.toNat - w.candIdx.toNat)) (w := w) (by omega) h.best
    generalize searchCandidates score _ w = v at *
    unfold searchFinish
    split
    · rename_i he
      exact ⟨by simp, (congrArg BitVec.toNat he).le, by simp, by rwa [h2]⟩
    · rename_i he
      have hne : v.candIdx.toNat ≠ v.candCount.toNat := fun e => he (BitVec.eq_of_toNat_eq e)
      have hle : v.candIdx.toNat ≤ v.candCount.toNat := by rw [h1, h2]; omega
      exact ⟨by simp [h4, hd], hle, fun _ => by omega, by rwa [h2]⟩
  · exact h

/-- A play posts a search of 1 to 65535 candidates or takes the result of the finished one (45_wsola.md R126). -/
theorem searchOk_afterPlay {w : Search} (h : SearchOk w) (post : Option (Fin Config.wsCandMax)) :
    SearchOk (searchAfterPlay w post) := by
  cases post with
  | none => exact ⟨by simp [searchAfterPlay], h.progress, h.unfinished, h.best⟩
  | some c =>
    have hc : c.val < 65535 := c.isLt
    have hn : (BitVec.ofNat 16 (c.val + 1)).toNat = c.val + 1 := by
      rw [BitVec.toNat_ofNat]
      exact Nat.mod_eq_of_lt (by omega)
    refine ⟨by simp [searchAfterPlay], Nat.zero_le _, fun _ => ?_, Nat.lt_of_lt_of_le Nat.zero_lt_one (le_max_left _ _)⟩
    show 0 < (BitVec.ofNat 16 (c.val + 1)).toNat
    omega

theorem searchOk_background {s : State} (h : SearchOk s.search) : SearchOk (background s).search := by
  unfold background
  split
  · exact searchOk_step _ _ h
  · exact h
  · exact h

theorem searchOk_playStage {s : State} (x : List Frame) (h : SearchOk s.search) : SearchOk (playStage s x).1.search := by
  unfold playStage
  split
  · exact h
  · exact searchOk_afterPlay h _
  · exact h
  · exact h

/-! ## The engines in a `PROCESS` that passes its gate -/

/-- Step 6c alone writes the grains and the search registers (48_sequencer.md R164); before it the parameters, the grains and the
search registers stand as they stood. -/
theorem processBlock_engines (s : State) :
    ∃ r x, (ParamsOk s → ParamsOk r) ∧ r.grains = s.grains ∧ r.search = s.search ∧
      (processBlock s).grains = (playStage r x).1.grains ∧ (processBlock s).search = (playStage r x).1.search := by
  refine ⟨recordStage (processInput s).1 (processInput s).2, (processInput s).2, ?_⟩
  have hr : ∀ r, r = recordStage (processInput s).1 (processInput s).2 →
      (ParamsOk s → ParamsOk r) ∧ r.grains = s.grains ∧ r.search = s.search := by
    rintro r rfl
    rw [recordStage_eq, processInput_eq]
    exact ⟨fun h => ⟨h.unit, h.pitch, h.flags, freezeFollow_le _ h.freezeLp, h.dwPrev⟩, rfl, rfl⟩
  obtain ⟨hp, hg, hs⟩ := hr _ rfl
  refine ⟨hp, hg, hs, ?_⟩
  unfold processBlock
  dsimp only
  rw [processEffects_eq]
  unfold processPlay
  rw [upsampleStage_eq]
  exact ⟨rfl, rfl⟩

/-- Every effect keeps the search registers in order (45_wsola.md R128). -/
theorem Completes.searchOk {s u : State} {i : Instr} (hc : Completes s i u) (h : SearchOk s.search) : SearchOk u.search := by
  by_cases he : u.search = s.search
  · rwa [he]
  · rcases hc.writesOnly.engines (by tauto) with ⟨size, rfl⟩ | rfl | ⟨sr, rfl⟩
    · cases hc with
      | processBypass | processSilent => exact h
      | processBlock =>
        obtain ⟨r, x, -, -, hs, -, e⟩ := processBlock_engines s
        rw [e]
        exact searchOk_playStage x (hs ▸ h)
    · cases hc with
      | prepareFull | prepareLight => exact searchOk_background searchOk_idle
      | prepareNone => exact searchOk_background h
    · cases hc
      exact searchOk_idle

/-! ## Grains (44_grain.md R114 to R119) -/

/-- The entries of `TBL_PITCH_LO` (40_tables.md R79). -/
theorem tblPitchLo_range {j : Nat} (h : j < 256) : 65536 ≤ tblPitchLo.getD j 0 ∧ tblPitchLo.getD j 0 ≤ 69417 := by
  have hall : ∀ x ∈ tblPitchLo, 65536 ≤ x ∧ x ≤ 69417 := by
    simp only [tblPitchLo, List.forall_mem_append]
    exact ⟨⟨⟨by decide, by decide⟩, by decide⟩, by decide⟩
  have hlen : tblPitchLo.length = 256 := by simp only [tblPitchLo, List.length_append]; decide
  rw [List.getD_eq_getElem _ _ (hlen ▸ h)]
  exact hall _ (List.getElem_mem _)

theorem tblPitchLo_zero : tblPitchLo.getD 0 0 = 65536 := by decide

/-- The entries of `TBL_PITCH_HI` from -48 to 47 semitones (40_tables.md R79). -/
theorem tblPitchHi_range {k : Nat} (h1 : 80 ≤ k) (h2 : k < 176) : 4096 ≤ tblPitchHi.getD k 0 ∧ tblPitchHi.getD k 0 ≤ 989724 := by
  have hall : ∀ j : Fin 96, 4096 ≤ tblPitchHi.getD (80 + j.val) 0 ∧ tblPitchHi.getD (80 + j.val) 0 ≤ 989724 := by decide
  have := hall ⟨k - 80, by omega⟩
  rwa [show 80 + (k - 80) = k by omega] at this

theorem tblPitchHi_top : tblPitchHi.getD 176 0 = 1048576 := by decide

/-- A pitch within 48 semitones gives a ratio from 1/16 to 16 (40_tables.md R80). -/
theorem pitchRatio_range {p : Int} (h1 : -12288 ≤ p) (h2 : p ≤ 12288) : 4096 ≤ pitchRatio p ∧ pitchRatio p ≤ 1048576 := by
  unfold pitchRatio
  dsimp only
  simp only [shr_ofNat, Int.shiftRight_eq_div_pow, Nat.shiftRight_eq_div_pow]
  have hk : 80 ≤ ((p + 32768) / (2 ^ 8 : Nat)).toNat := by omega
  rcases Int.lt_or_eq_of_le h2 with h2 | rfl
  · have hk' : ((p + 32768) / (2 ^ 8 : Nat)).toNat < 176 := by omega
    obtain ⟨a1, a2⟩ := tblPitchHi_range hk hk'
    obtain ⟨b1, b2⟩ := tblPitchLo_range (j := (p % 256).toNat) (by omega)
    have hlo := Nat.mul_le_mul a1 b1
    have hhi := Nat.mul_le_mul a2 b2
    omega
  · rw [show ((12288 + 32768 : Int) / (2 ^ 8 : Nat)).toNat = 176 by decide, show ((12288 : Int) % 256).toNat = 0 by decide,
      tblPitchHi_top, tblPitchLo_zero]
    decide

/-- `GRAIN_SIZE` is at most 32768 samples (40_tables.md R83). -/
theorem grainSize_le (size : Nat) : grainSize size ≤ 32768 := by
  unfold grainSize
  dsimp only
  split
  · decide
  · rename_i hk
    have hall : ∀ k : Fin 32, tblGrainSize.getD k.val 0 ≤ tblGrainSize.getD (k.val + 1) 0 ∧
        tblGrainSize.getD (k.val + 1) 0 ≤ 32768 := by decide
    obtain ⟨h1, h2⟩ := hall ⟨size >>> 10, not_le.mp hk⟩
    dsimp only at h1 h2
    simp only [shr_ofNat, Int.shiftRight_eq_div_pow]
    generalize tblGrainSize.getD (size >>> 10) 0 = a at *
    generalize tblGrainSize.getD (size >>> 10 + 1) 0 = b at *
    have hm : (b - a) * ((size % 1024 : Nat) : Int) ≤ (b - a) * 1024 :=
      Int.mul_le_mul_of_nonneg_left (by omega) (by omega)
    omega

theorem grainLength_le (s : State) : grainLength s ≤ 32768 := (min_le_left _ _).trans (grainSize_le _)

section

variable {s u : State} {i : Instr}

/-- The pan of a grain (44_grain.md R116). -/
theorem pan_range {rp width : Nat} (hr : rp < 65536) (hw : width ≤ 32768) :
    -16384 ≤ (((rp : Int) - 32768) * (width : Int)) / (2 ^ 16 : Nat) ∧
      (((rp : Int) - 32768) * (width : Int)) / (2 ^ 16 : Nat) ≤ 16383 := by
  have h1 : -32768 * (width : Int) ≤ ((rp : Int) - 32768) * (width : Int) :=
    Int.mul_le_mul_of_nonneg_right (by omega) (by omega)
  have h2 : ((rp : Int) - 32768) * (width : Int) ≤ 32767 * (width : Int) :=
    Int.mul_le_mul_of_nonneg_right (by omega) (by omega)
  omega

/-- A spawned grain is in range when the length is long enough to spawn one (44_grain.md R114 to R116). -/
theorem grainOk_spawned (h : ParamsOk s) (hl : Config.grainMinLen ≤ grainLength s) {rp : Nat} (hr : rp < 65536) :
    GrainOk (spawnedGrain s rp) := by
  intro _
  have hm : Config.grainMinLen = 16 := rfl
  have hl' := grainLength_le s
  obtain ⟨r1, r2⟩ := pitchRatio_range h.pitch.1 h.pitch.2
  have hwidth : s.p[6].toNat ≤ 32768 := h.unit 6 (by decide) (by decide)
  obtain ⟨p1, p2⟩ := pan_range hr hwidth
  have len : (spawnedGrain s rp).len.toNat = (grainLength s).toNat := by
    simp only [spawnedGrain, BitVec.toNat_ofInt]
    omega
  have ratio : (spawnedGrain s rp).ratio.toNat = pitchRatio s.p[2].toInt := by
    simp only [spawnedGrain, grainRatio, BitVec.toNat_ofInt]
    omega
  have phase : (spawnedGrain s rp).phase.toNat = 0 := rfl
  rw [len, ratio, phase]
  refine ⟨by omega, by omega, by omega, r1, r2, ?_, ?_⟩ <;>
    simp only [spawnedGrain, BitVec.toNat_ofInt, shr_ofNat, Int.shiftRight_eq_div_pow] <;>
    push_cast at p1 p2 ⊢ <;>
    omega

/-- Spawning keeps the grains in range (44_grain.md R116). -/
theorem grainOk_spawn (h : ParamsOk s) (count : Nat) (hl : count ≠ 0 → Config.grainMinLen ≤ grainLength s) (g : GrainPool)
    (hg : ∀ k : Fin Config.maxGrains, GrainOk g.slots[k]) :
    ∀ k : Fin Config.maxGrains, GrainOk (spawnGrains s count g).slots[k] := by
  induction count generalizing g with
  | zero => exact hg
  | succ count ih =>
    cases hf : freeSlot 0 g.slots.toList with
    | none => simpa only [spawnGrains, hf] using hg
    | some j =>
      simp only [spawnGrains, hf]
      refine ih (fun _ => hl (Nat.succ_ne_zero _)) _ fun k => ?_
      have hd : prngDraw (prngNext g.prng) < 65536 := by
        have := (prngNext g.prng).isLt
        rw [prngDraw, Nat.shiftRight_eq_div_pow]
        omega
      have hs := grainOk_spawned h (hl (Nat.succ_ne_zero _)) hd
      by_cases hk : j = k.val
      · simpa [hk] using hs
      · simpa [Vector.getElem_setIfInBounds, hk] using hg k

/-- A sample played keeps a grain in range: a grain whose last sample was played is not active (44_grain.md R118). -/
theorem grainOk_advance {g : GrainSlot} (h : GrainOk g) : GrainOk (grainAdvance g) := by
  unfold grainAdvance
  split
  · rename_i ha
    obtain ⟨h1, h2, -, h4⟩ := h ha
    intro hact
    have hlt : g.phase.toNat + 1 < g.len.toNat := by simpa using hact
    have hn : (g.phase + 1).toNat = g.phase.toNat + 1 := by
      rw [BitVec.toNat_add]
      exact Nat.mod_eq_of_lt (show g.phase.toNat + 1 < 65536 by omega)
    exact ⟨h1, h2, by rw [hn]; exact hlt, h4⟩
  · exact h

theorem grainOk_synth (s : State) (ni : Nat) (slots : Vector GrainSlot Config.maxGrains)
    (h : ∀ k : Fin Config.maxGrains, GrainOk slots[k]) : ∀ k : Fin Config.maxGrains, GrainOk (grainSynth s ni slots).1[k] := by
  induction ni generalizing slots with
  | zero => exact h
  | succ ni ih => exact ih _ fun k => by simpa using grainOk_advance (h k)

/-- No grain is spawned where the length is too short for one (44_grain.md R115). -/
theorem spawnDecision_count {ni : Nat} (h : (spawnDecision s ni).count ≠ 0) : Config.grainMinLen ≤ grainLength s := by
  by_contra hl
  exact h (if_pos (not_le.mp hl))

theorem grainOk_play (h : ParamsOk s) (ni : Nat) (hg : ∀ k : Fin Config.maxGrains, GrainOk s.grains.slots[k]) :
    ∀ k : Fin Config.maxGrains, GrainOk (grainPlay s ni).1.slots[k] :=
  grainOk_synth s ni _ (grainOk_spawn h _ spawnDecision_count _ hg)

theorem grainOk_fresh : ∀ k : Fin Config.maxGrains, GrainOk GrainPool.fresh.slots[k] := by
  intro k hk
  simp [GrainPool.fresh, GrainSlot.clear] at hk

/-- An engine init clears the pool in Granular mode and leaves it in the others (48_sequencer.md R154). -/
theorem grainOk_engineInit (hg : ∀ k : Fin Config.maxGrains, GrainOk s.grains.slots[k]) :
    ∀ k : Fin Config.maxGrains, GrainOk (if s.mode = .granular then GrainPool.fresh else s.grains).slots[k] := by
  split
  · exact grainOk_fresh
  · exact hg

theorem grainOk_playStage (h : ParamsOk s) (x : List Frame) (hg : ∀ k : Fin Config.maxGrains, GrainOk s.grains.slots[k]) :
    ∀ k : Fin Config.maxGrains, GrainOk (playStage s x).1.grains.slots[k] := by
  unfold playStage
  split
  · exact grainOk_play h _ hg
  · exact hg
  · exact hg
  · exact hg

/-- Every effect keeps the playing grains in range. -/
theorem Completes.grainsOk (hc : Completes s i u) (h : ParamsOk s)
    (hg : ∀ k : Fin Config.maxGrains, GrainOk s.grains.slots[k]) : ∀ k : Fin Config.maxGrains, GrainOk u.grains.slots[k] := by
  by_cases he : u.grains = s.grains
  · rwa [he]
  · rcases hc.writesOnly.engines (by tauto) with ⟨size, rfl⟩ | rfl | ⟨sr, rfl⟩
    · cases hc with
      | processBypass | processSilent => exact hg
      | processBlock =>
        obtain ⟨r, x, hr, hs, -, e, -⟩ := processBlock_engines s
        rw [e]
        exact grainOk_playStage (hr h) x (by rwa [hs])
    · cases hc with
      | prepareFull plan =>
        obtain ⟨ml, ms, rs, w, k, e⟩ := background_fullReset_frame s plan
        rw [e]
        exact grainOk_engineInit hg
      | prepareLight =>
        obtain ⟨w, k, e⟩ := background_lightReset_frame s
        rw [e]
        exact grainOk_engineInit hg
      | prepareNone =>
        obtain ⟨w, k, e⟩ := background_frame s
        rw [e]
        exact hg
    · cases hc
      exact grainOk_fresh

/-- Settles O15, by the induction over a step. -/
theorem stepKeepsGrainRanges : Obligations.StepKeepsGrainRanges := by
  unfold Obligations.StepKeepsGrainRanges
  intro s t hp hg hst
  have h : ParamsOk t ∧ ∀ k : Fin Config.maxGrains, GrainOk t.grains.slots[k] :=
    step_keeps (P := fun s => ParamsOk s ∧ ∀ k : Fin Config.maxGrains, GrainOk s.grains.slots[k])
      (fun _ _ _ _ _ _ _ _ _ _ h => ⟨h.1.congr rfl rfl rfl, h.2⟩) (fun hw => ⟨paramsOk_reset hw, grainOk_fresh⟩)
      (fun _ _ _ h hc => ⟨hc.paramsOk h.1, hc.grainsOk h.1 h.2⟩) ⟨hp, hg⟩ hst
  exact h.2

end

end Sys2Proof.Machine
end

section
/-! PROOFS. The arenas and the ring buffers (10_state.md R32, 20_memory.md R47 to R53, 41_ring_buffer.md R84 to R95): what a stored
sample, a binding and a carve-up leave of the invariants of a bound ring buffer. -/

namespace Sys2Proof.Machine

/-! ## The part of the invariant that speaks of arenas and ring buffers -/

/-- Both arenas are in order and so are both ring buffers. -/
structure MemOk (s : State) : Prop where
  arenas : ∀ sp, (s.arena sp).Ok
  rings : RingsOk s

/-- Bytes of an arena replaced by bytes in canonical form inside it. -/
theorem Arena.Ok.withMem {a : Arena} (h : a.Ok) {m : Memory} (hw : m.wf = true)
    (hin : ∀ x, (m.get? x).isSome = true → x < a.size.toNat) : Arena.Ok { a with mem := m } :=
  ⟨hw, h.sized, hin⟩

section

variable {s t : State} {i j : Fin 2} {r q : Ring}

/-! ## Samples and regions -/

/-- A sample below the capacity lies in the region. -/
theorem inRegion_of_inSample (hb : r.bound = true) (hn : r.n.toNat = capacity r.enc r.size.toNat) {a x : Nat}
    (ha : a < r.n.toNat) (hx : inSample r a x) : inRegion r r.space x := by
  obtain ⟨h1, h2⟩ := hx
  rw [hn] at ha
  refine ⟨hb, rfl, ?_, ?_⟩ <;> unfold sampleAddress at h1 h2
  · omega
  · cases he : r.enc <;> simp only [he, sampleWidth, capacity, Nat.shiftRight_eq_div_pow] at * <;> omega

/-- Two samples share no byte. -/
theorem not_inSample_of_ne {a b x : Nat} (hab : a ≠ b) (hx : inSample r a x) : ¬ inSample r b x := by
  unfold inSample sampleAddress at *
  cases he : r.enc <;> simp only [he, sampleWidth] at * <;> omega

/-- The registers that say where the samples of a ring buffer lie. -/
structure SameRegion (r q : Ring) : Prop where
  bound : q.bound = r.bound
  enc : q.enc = r.enc
  space : q.space = r.space
  base : q.base = r.base
  size : q.size = r.size
  n : q.n = r.n

theorem SameRegion.refl (r : Ring) : SameRegion r r := ⟨rfl, rfl, rfl, rfl, rfl, rfl⟩

theorem SameRegion.trans {u : Ring} (h : SameRegion r q) (h' : SameRegion q u) : SameRegion r u :=
  ⟨h'.bound.trans h.bound, h'.enc.trans h.enc, h'.space.trans h.space, h'.base.trans h.base, h'.size.trans h.size,
    h'.n.trans h.n⟩

theorem SameRegion.inRegion_iff (h : SameRegion r q) (sp : Space) (x : Nat) : inRegion q sp x ↔ inRegion r sp x := by
  obtain ⟨hb, -, hs, ha, hz, -⟩ := h
  simp only [inRegion, hb, hs, ha, hz]

/-- A byte of a bound region lies inside its arena. -/
theorem BoundOk.lt_size (h : BoundOk s i) {sp : Space} {x : Nat} (hx : inRegion s.rings[i] sp x) :
    x < (s.arena sp).size.toNat := by
  obtain ⟨-, rfl, -, hlt⟩ := hx
  exact hlt.trans_le h.inside

/-! ## Loads -/

theorem mulawDecode_range (c : Byte) : -32768 ≤ mulawDecode c ∧ mulawDecode c ≤ 32767 := by
  have hseg := (c.extractLsb' 4 3).isLt
  have hman := (c.extractLsb' 0 4).isLt
  unfold mulawDecode
  dsimp only
  generalize (c.extractLsb' 4 3).toNat = seg at *
  generalize (c.extractLsb' 0 4).toNat = man at *
  have h1 : ((man <<< 3) + 132) <<< seg ≤ 252 * 2 ^ 7 := by
    rw [Nat.shiftLeft_eq _ seg]
    exact Nat.mul_le_mul (by omega) (Nat.pow_le_pow_right (by omega) (by omega))
  generalize ((man <<< 3) + 132) <<< seg = mag at *
  split <;> omega

/-- A load gives a 16-bit sample. -/
theorem rbLoad_range (s : State) (i : Fin 2) (a : Nat) : -32768 ≤ rbLoad s i a ∧ rbLoad s i a ≤ 32767 := by
  unfold rbLoad
  dsimp only
  split
  · generalize s.loadHalf s.rings[i].space (sampleAddress s.rings[i] a) = v
    have h1 := v.le_toInt
    have h2 := v.toInt_lt
    omega
  · exact mulawDecode_range _

/-- A sample of zero bytes loads as 0 in both encodings. -/
theorem rbLoad_zero {a : Nat} (h : ∀ x, inSample s.rings[i] a x → s.byte? s.rings[i].space x = some 0) : rbLoad s i a = 0 := by
  unfold rbLoad
  dsimp only
  split
  · rename_i he
    have h0 := h (sampleAddress s.rings[i] a) ⟨le_refl _, by rw [he, sampleWidth]; omega⟩
    have h1 := h (sampleAddress s.rings[i] a + 1) ⟨by omega, by rw [he, sampleWidth]; omega⟩
    simp only [State.loadHalf, State.loadByte, h0, h1, Option.getD_some]
    decide
  · rename_i he
    have h0 := h (sampleAddress s.rings[i] a) ⟨le_refl _, by rw [he, sampleWidth]; omega⟩
    simp only [State.loadByte, h0, Option.getD_some]
    decide

/-! ## Bound ring buffers -/

/-- A bound ring buffer stays in order where its registers, its arena's declaration and the bytes of its region stand. -/
theorem BoundOk.transfer (h : BoundOk s i) (hb : s.rings[i].bound = true) (hr : t.rings[i] = s.rings[i])
    (hd : (t.arena s.rings[i].space).declared = (s.arena s.rings[i].space).declared)
    (hz : (t.arena s.rings[i].space).size = (s.arena s.rings[i].space).size)
    (hy : ∀ x, inRegion s.rings[i] s.rings[i].space x → t.byte? s.rings[i].space x = s.byte? s.rings[i].space x) :
    BoundOk t i := by
  obtain ⟨declared, inside, samples, room, cursor, fade, even, specified, tail⟩ := h
  constructor <;> rw [hr]
  · rwa [hd]
  · rwa [hz]
  · exact samples
  · exact room
  · exact cursor
  · exact fade
  · exact even
  · exact fun x hx => by rw [hy x hx]; exact specified x hx
  · intro k
    rw [tail k, rbLoad_congr hr fun x hx => hy x (inRegion_of_inSample hb samples (k.isLt.trans_le room) hx)]

/-- A fresh binding is in order: the region fits, every byte of it is 0 (41_ring_buffer.md R84, R85). -/
theorem boundOk_boundRing {sp : Space} {enc : SampleFormat} {base size : BitVec 24}
    (hr : t.rings[i] = boundRing sp enc base size) (hd : (t.arena sp).declared = true)
    (hin : base.toNat + size.toNat ≤ (t.arena sp).size.toNat) (hroom : Config.tail ≤ capacity enc size.toNat)
    (heven : enc = .linear16 → base.toNat % 2 = 0 ∧ size.toNat % 2 = 0)
    (hz : ∀ x, base.toNat ≤ x → x < base.toNat + size.toNat → t.byte? sp x = some 0) : BoundOk t i := by
  have hn : t.rings[i].n.toNat = capacity enc size.toNat := by rw [hr, boundRing_n]
  have hreg : ∀ x, inRegion t.rings[i] sp x → t.byte? sp x = some 0 := by
    rw [hr]
    exact fun x ⟨_, _, h1, h2⟩ => hz x h1 h2
  have hsp : t.rings[i].space = sp := by rw [hr]; rfl
  have hbd : t.rings[i].bound = true := by rw [hr]; rfl
  have hcap : t.rings[i].n.toNat = capacity t.rings[i].enc t.rings[i].size.toNat := by rw [hn, hr]; rfl
  constructor
  · rwa [hsp]
  · rw [hsp, hr]
    exact hin
  · exact hcap
  · rwa [hn]
  · rw [hn, hr]
    exact Nat.lt_of_lt_of_le (show 0 < Config.tail by decide) hroom
  · rw [hr]
    exact Nat.zero_le _
  · rw [hr]
    exact heven
  · rw [hsp]
    exact fun x hx => by rw [hreg x hx]; rfl
  · intro k
    have hk : k.val < t.rings[i].n.toNat := k.isLt.trans_le (hn ▸ hroom)
    rw [rbLoad_zero fun x hx => by
      have := inRegion_of_inSample hbd hcap hk hx
      rw [hsp] at this ⊢
      exact hreg x this, hr]
    simp [boundRing]

theorem ringsOk_of_unbound (h : ∀ i : Fin 2, s.rings[i] = Ring.unbound) : RingsOk s := by
  have hb (i : Fin 2) : s.rings[i].bound = false := by rw [h i]; rfl
  refine ⟨fun i hi => absurd ((hb i).symm.trans hi) Bool.false_ne_true, fun i _ => h i, fun sp x => ?_⟩
  rintro ⟨⟨h0, -⟩, -⟩
  exact absurd ((hb 0).symm.trans h0) Bool.false_ne_true

theorem MemOk.congr (h : MemOk s) (hl : t.large = s.large) (hs : t.small = s.small) (hr : t.rings = s.rings) : MemOk t := by
  have ha (sp : Space) : t.arena sp = s.arena sp := by cases sp <;> assumption
  have hy (sp : Space) (x : Nat) : t.byte? sp x = s.byte? sp x := by rw [State.byte?, State.byte?, ha]
  have hrr (i : Fin 2) : t.rings[i] = s.rings[i] := by rw [hr]
  refine ⟨fun sp => by rw [ha]; exact h.arenas sp, fun i hi => ?_, fun i hi => ?_, fun sp x => ?_⟩
  · rw [hrr] at hi
    exact (h.rings.bound i hi).transfer hi (hrr i) (by rw [ha]) (by rw [ha]) fun x _ => hy _ x
  · rw [hrr] at hi ⊢
    exact h.rings.unbound i hi
  · have h0 : t.rings[0] = s.rings[0] := hrr 0
    have h1 : t.rings[1] = s.rings[1] := hrr 1
    rw [h0, h1]
    exact h.rings.disjoint sp x

/-! ## What a write leaves -/

/-- What writes to bound ring buffers leave: their regions, the declarations of the arenas, every byte outside the regions. -/
structure Recorded (s t : State) : Prop where
  regions : ∀ i : Fin 2, SameRegion s.rings[i] t.rings[i]
  declared : ∀ sp, (t.arena sp).declared = (s.arena sp).declared
  sizes : ∀ sp, (t.arena sp).size = (s.arena sp).size
  outside : ∀ sp x, (∀ i : Fin 2, ¬ inRegion s.rings[i] sp x) → t.byte? sp x = s.byte? sp x

theorem Recorded.of_eq (hl : t.large = s.large) (hs : t.small = s.small) (hr : t.rings = s.rings) : Recorded s t := by
  have ha (sp : Space) : t.arena sp = s.arena sp := by cases sp <;> assumption
  refine ⟨fun i => ?_, fun sp => by rw [ha], fun sp => by rw [ha], fun sp x _ => by rw [State.byte?, State.byte?, ha]⟩
  rw [hr]
  exact SameRegion.refl _

theorem Recorded.trans {u : State} (h : Recorded s t) (h' : Recorded t u) : Recorded s u :=
  ⟨fun i => (h.regions i).trans (h'.regions i), fun sp => (h'.declared sp).trans (h.declared sp),
    fun sp => (h'.sizes sp).trans (h.sizes sp),
    fun sp x hx => (h'.outside sp x fun i hi => hx i (((h.regions i).inRegion_iff sp x).mp hi)).trans (h.outside sp x hx)⟩

/-- A write to one bound ring buffer keeps both in order when it keeps that one in order and leaves the other alone. -/
theorem MemOk.of_recorded (h : MemOk s) (hb : s.rings[i].bound = true) (hrec : Recorded s t)
    (ha : ∀ sp, (t.arena sp).Ok) (hi : BoundOk t i)
    (hother : ∀ j : Fin 2, i ≠ j → t.rings[j] = s.rings[j] ∧
      ∀ x, inRegion s.rings[j] s.rings[j].space x → t.byte? s.rings[j].space x = s.byte? s.rings[j].space x) : MemOk t := by
  refine ⟨ha, fun j hj => ?_, fun j hj => ?_, fun sp x => ?_⟩
  · by_cases hij : i = j
    · exact hij ▸ hi
    · obtain ⟨hr, hy⟩ := hother j hij
      rw [hr] at hj
      exact (h.rings.bound j hj).transfer hj hr (hrec.declared _) (hrec.sizes _) hy
  · have hij : i ≠ j := by
      rintro rfl
      rw [(hrec.regions i).bound, hb] at hj
      exact absurd hj Bool.true_eq_false.mp
    obtain ⟨hr, -⟩ := hother j hij
    rw [hr] at hj ⊢
    exact h.rings.unbound j hj
  · have h0 : SameRegion s.rings[0] t.rings[0] := hrec.regions 0
    have h1 : SameRegion s.rings[1] t.rings[1] := hrec.regions 1
    rw [h0.inRegion_iff, h1.inRegion_iff]
    exact h.rings.disjoint sp x

/-- The regions of two bound ring buffers share no byte (41_ring_buffer.md R85). -/
theorem RingsOk.not_inRegion (h : RingsOk s) (hij : i ≠ j) {sp : Space} {x : Nat} (hx : inRegion s.rings[j] sp x) :
    ¬ inRegion s.rings[i] sp x := by
  intro hx'
  obtain ⟨i, hi⟩ := i
  obtain ⟨j, hj⟩ := j
  have hne : i ≠ j := fun e => hij (Fin.ext e)
  have : (i = 0 ∧ j = 1) ∨ (i = 1 ∧ j = 0) := by omega
  rcases this with ⟨rfl, rfl⟩ | ⟨rfl, rfl⟩
  · exact h.disjoint sp x ⟨hx', hx⟩
  · exact h.disjoint sp x ⟨hx, hx'⟩

/-- The two regions share no byte where the other one shares none with the region of `i`. -/
theorem ringsDisjoint_of_other (i : Fin 2)
    (h : ∀ j : Fin 2, i ≠ j → ∀ sp x, inRegion t.rings[j] sp x → ¬ inRegion t.rings[i] sp x) (sp : Space) (x : Nat) :
    ¬(inRegion t.rings[0] sp x ∧ inRegion t.rings[1] sp x) := by
  rintro ⟨h0, h1⟩
  obtain ⟨i, hi⟩ := i
  have : i = 0 ∨ i = 1 := by omega
  rcases this with rfl | rfl
  · exact h 1 (show (0 : Fin 2) ≠ 1 by decide) sp x h1 h0
  · exact h 0 (show (1 : Fin 2) ≠ 0 by decide) sp x h0 h1

/-! ## One sample written (41_ring_buffer.md R86) -/

/-- A byte after one sample is written, outside that sample. -/
theorem rbPut_byte?_other (hw : (s.arena s.rings[i].space).mem.wf = true) {sp : Space} {x : Nat}
    (hx : ¬(sp = s.rings[i].space ∧ inSample s.rings[i] s.rings[i].wcur.toNat x)) (v : Int) :
    (rbPut s i v).byte? sp x = s.byte? sp x := by
  rw [rbPut_eq, State.withRing_byte?, State.mapMem_byte?]
  split
  · rename_i hs
    subst hs
    exact storeIn_get?_other hw (fun hx' => hx ⟨rfl, hx'⟩) _
  · rfl

/-- A byte of the sample written is specified. -/
theorem rbPut_isSome (hw : (s.arena s.rings[i].space).mem.wf = true) {x : Nat}
    (hx : inSample s.rings[i] s.rings[i].wcur.toNat x) (v : Int) :
    ((rbPut s i v).byte? s.rings[i].space x).isSome = true := by
  rw [rbPut_eq, State.withRing_byte?, State.mapMem_byte?, if_pos rfl]
  exact storeIn_isSome hw hx _

theorem rbPut_ring (s : State) (i : Fin 2) (v : Int) : (rbPut s i v).rings[i] = putRing s i v := by
  rw [rbPut_eq, State.withRing_get_self]

theorem putRing_sameRegion (s : State) (i : Fin 2) (v : Int) : SameRegion s.rings[i] (putRing s i v) :=
  ⟨rfl, rfl, rfl, rfl, rfl, rfl⟩

theorem putRing_tail_eq (s : State) (i : Fin 2) (v : Int) :
    (putRing s i v).tail =
      if h : s.rings[i].wcur.toNat < Config.tail then
        s.rings[i].tail.set s.rings[i].wcur.toNat
          (toHalf (rbLoad (rbStore s i s.rings[i].wcur.toNat (rbFaded s i v)) i s.rings[i].wcur.toNat)) h
      else s.rings[i].tail := rfl

theorem rbPut_ring_other (hij : i ≠ j) (v : Int) : (rbPut s i v).rings[j] = s.rings[j] := by
  rw [rbPut_eq, State.withRing_get_other _ hij, State.mapMem_rings]

/-- The load of the sample at the cursor after a write is the load after the store. -/
theorem rbPut_load (s : State) (i : Fin 2) (v : Int) (a : Nat) :
    rbLoad (rbPut s i v) i a = rbLoad (rbStore s i s.rings[i].wcur.toNat (rbFaded s i v)) i a := by
  have hr : (rbStore s i s.rings[i].wcur.toNat (rbFaded s i v)).rings[i] = s.rings[i] := by
    rw [rbStore_eq, State.mapMem_rings]
  rw [rbPut_eq, ← rbStore_eq]
  exact rbLoad_withRing _ i _ a (by rw [hr]; rfl) (by rw [hr]; rfl) (by rw [hr]; rfl)

/-- The load of every other sample stands. -/
theorem rbPut_load_other (hw : (s.arena s.rings[i].space).mem.wf = true) {a : Nat} (ha : a ≠ s.rings[i].wcur.toNat) (v : Int) :
    rbLoad (rbPut s i v) i a = rbLoad s i a := by
  rw [rbPut_load]
  refine rbLoad_congr (by rw [rbStore_eq, State.mapMem_rings]) fun x hx => ?_
  rw [rbStore_eq, State.mapMem_byte?, if_pos rfl]
  exact storeIn_get?_other hw (not_inSample_of_ne ha hx) _

section

variable (h : MemOk s) (hb : s.rings[i].bound = true)

include h hb

/-- The sample at the cursor lies in the region. -/
theorem cursor_inRegion {x : Nat} (hx : inSample s.rings[i] s.rings[i].wcur.toNat x) :
    inRegion s.rings[i] s.rings[i].space x :=
  inRegion_of_inSample hb (h.rings.bound i hb).samples (h.rings.bound i hb).cursor hx

theorem rbPut_recorded (v : Int) : Recorded s (rbPut s i v) := by
  refine ⟨fun j => ?_, fun sp => by rw [rbPut_eq, State.withRing_arena, State.mapMem_declared],
    fun sp => by rw [rbPut_eq, State.withRing_arena, State.mapMem_size], fun sp x hx => ?_⟩
  · by_cases hij : i = j
    · rw [← hij, rbPut_ring]
      exact putRing_sameRegion s i v
    · rw [rbPut_ring_other hij]
      exact SameRegion.refl _
  · refine rbPut_byte?_other (h.arenas _).canonical ?_ v
    rintro ⟨rfl, hx'⟩
    exact hx i (cursor_inRegion h hb hx')

/-- A written sample leaves the arenas in order. -/
theorem rbPut_arenaOk (v : Int) (sp : Space) : ((rbPut s i v).arena sp).Ok := by
  have hwf := (h.arenas s.rings[i].space).canonical
  have hrec := rbPut_recorded h hb v
  obtain ⟨canonical, sized, within⟩ := h.arenas sp
  refine ⟨?_, by rw [hrec.declared, hrec.sizes]; exact sized, fun x hx => ?_⟩
  · rw [rbPut_eq, State.withRing_arena, State.mapMem_mem]
    split
    · exact storeIn_wf hwf _ _ _
    · exact canonical
  · rw [hrec.sizes]
    by_cases hs : sp = s.rings[i].space ∧ inSample s.rings[i] s.rings[i].wcur.toNat x
    · obtain ⟨rfl, hs⟩ := hs
      exact (h.rings.bound i hb).lt_size (cursor_inRegion h hb hs)
    · have hy := rbPut_byte?_other hwf hs v
      simp only [State.byte?] at hy
      rw [hy] at hx
      exact within x hx

/-- The tail copy after a write: the value as stored at the cursor, the other samples as they stood (41_ring_buffer.md R86). -/
theorem putRing_tail (v : Int) (k : Fin Config.tail) :
    (putRing s i v).tail[k].toInt = rbLoad (rbPut s i v) i k.val := by
  have hwf := (h.arenas s.rings[i].space).canonical
  have hold := (h.rings.bound i hb).tail k
  obtain ⟨k, hk⟩ := k
  show (putRing s i v).tail[k].toInt = rbLoad (rbPut s i v) i k
  by_cases hc : s.rings[i].wcur.toNat = k
  · have hrange := rbLoad_range (rbStore s i s.rings[i].wcur.toNat (rbFaded s i v)) i s.rings[i].wcur.toNat
    simp only [putRing_tail_eq, dif_pos (hc.trans_lt hk), Vector.getElem_set, if_pos hc]
    rw [rbPut_load, toInt_toHalf hrange.1 hrange.2, hc]
  · rw [rbPut_load_other hwf (Ne.symm hc)]
    refine Eq.trans (congrArg BitVec.toInt ?_) hold
    rw [putRing_tail_eq]
    split
    · exact Vector.getElem_set_ne _ _ hc
    · rfl

/-- A written sample leaves its ring buffer in order. -/
theorem rbPut_boundOk (v : Int) : BoundOk (rbPut s i v) i := by
  have hwf := (h.arenas s.rings[i].space).canonical
  have hrec := rbPut_recorded h hb v
  obtain ⟨declared, inside, samples, room, cursor, fade, even, specified, tail⟩ := h.rings.bound i hb
  have hn := s.rings[i].n.isLt
  have ht : Config.tail = 8 := rfl
  have hsp : (putRing s i v).space = s.rings[i].space := rfl
  constructor <;> rw [rbPut_ring]
  · rw [hsp, hrec.declared]
    exact declared
  · rw [hsp, hrec.sizes]
    exact inside
  · exact samples
  · exact room
  · have hlt : (s.rings[i].wcur.toNat + 1) % s.rings[i].n.toNat < s.rings[i].n.toNat := Nat.mod_lt _ (by omega)
    simp only [putRing, BitVec.toNat_ofNat]
    rwa [Nat.mod_eq_of_lt (by omega)]
  · simp only [putRing]
    split
    · rename_i hpos
      rw [BitVec.toNat_sub_of_le (show (1 : BitVec 7) ≤ s.rings[i].fade from hpos)]
      exact (Nat.sub_le _ _).trans fade
    · exact fade
  · exact even
  · intro x hx
    rw [hsp]
    by_cases hs : inSample s.rings[i] s.rings[i].wcur.toNat x
    · exact rbPut_isSome hwf hs v
    · rw [rbPut_byte?_other hwf (fun hc => hs hc.2)]
      exact specified x ((putRing_sameRegion s i v).inRegion_iff _ _ |>.mp hx)
  · exact putRing_tail h hb v

theorem rbPut_memOk (v : Int) : MemOk (rbPut s i v) := by
  refine h.of_recorded hb (rbPut_recorded h hb v) (rbPut_arenaOk h hb v) (rbPut_boundOk h hb v) fun j hij =>
    ⟨rbPut_ring_other hij v, fun x hx => rbPut_byte?_other (h.arenas _).canonical ?_ v⟩
  rintro ⟨hs, hx'⟩
  rw [hs] at hx
  exact h.rings.not_inRegion hij hx (cursor_inRegion h hb hx')

/-! ## Writes (41_ring_buffer.md R87) -/

theorem rbPuts_keep (xs : List Half) :
    MemOk (xs.foldl (fun t x => rbPut t i x.toInt) s) ∧ Recorded s (xs.foldl (fun t x => rbPut t i x.toInt) s) := by
  induction xs generalizing s with
  | nil => exact ⟨h, .of_eq rfl rfl rfl⟩
  | cons x xs ih =>
    have hrec := rbPut_recorded h hb x.toInt
    obtain ⟨hm, hr⟩ := ih (rbPut_memOk h hb x.toInt) ((hrec.regions i).bound.trans hb)
    exact ⟨hm, hrec.trans hr⟩

/-- A frozen write keeps the ring buffers in order: only the fade moves, to its length (41_ring_buffer.md R94). -/
theorem refade_keep :
    MemOk (s.withRing i { s.rings[i] with fade := BitVec.ofNat 7 Config.fadeLen }) ∧
      Recorded s (s.withRing i { s.rings[i] with fade := BitVec.ofNat 7 Config.fadeLen }) := by
  generalize hq : ({ s.rings[i] with fade := BitVec.ofNat 7 Config.fadeLen } : Ring) = q
  have hsame : SameRegion s.rings[i] q := by
    subst hq
    exact ⟨rfl, rfl, rfl, rfl, rfl, rfl⟩
  have hrec : Recorded s (s.withRing i q) := by
    refine ⟨fun j => ?_, fun sp => by rw [State.withRing_arena], fun sp => by rw [State.withRing_arena],
      fun sp x _ => State.withRing_byte? ..⟩
    by_cases hij : i = j
    · rw [← hij, State.withRing_get_self]
      exact hsame
    · rw [State.withRing_get_other _ hij]
      exact SameRegion.refl _
  refine ⟨h.of_recorded hb hrec (fun sp => by rw [State.withRing_arena]; exact h.arenas sp) ?_ fun j hij =>
    ⟨State.withRing_get_other _ hij _, fun x _ => State.withRing_byte? ..⟩, hrec⟩
  obtain ⟨declared, inside, samples, room, cursor, -, even, specified, tail⟩ := h.rings.bound i hb
  have hload (k : Nat) : rbLoad (s.withRing i q) i k = rbLoad s i k :=
    rbLoad_withRing s i q k hsame.enc hsame.space hsame.base
  subst hq
  constructor <;> simp only [State.withRing_get_self, State.withRing_arena, State.withRing_byte?, hload]
  · exact declared
  · exact inside
  · exact samples
  · exact room
  · exact cursor
  · decide
  · exact even
  · exact specified
  · exact tail

/-- A write to a bound ring buffer keeps both in order, gate open or closed. -/
theorem rbWrite_keep (xs : List Half) (allow : Bool) : MemOk (rbWrite s i xs allow) ∧ Recorded s (rbWrite s i xs allow) := by
  unfold rbWrite
  split
  · exact ⟨h, .of_eq rfl rfl rfl⟩
  · split
    · exact rbPuts_keep h hb xs
    · exact refade_keep h hb

end

end

end Sys2Proof.Machine
end

section
/-! PROOFS. Every command keeps the arenas and the ring buffers in order and the block ready (48_sequencer.md R174), and with them the
whole invariant of a run. -/

namespace Sys2Proof.Machine

section

variable {s t u : State} {i : Instr}

/-! ## Declaring and binding (41_ring_buffer.md R85, 47_host_commands.md R138) -/

/-- Declaring an arena unbinds the ring buffers in it and leaves every byte of it unspecified. -/
theorem declareArena_memOk (h : MemOk s) (which : Space) {size : BitVec 24} (hsize : size ≠ 0) :
    MemOk (declareArena s which size) := by
  have hring (k : Fin 2) : (declareArena s which size).rings[k] = unbindIn which s.rings[k] := by
    rw [declareArena_eq]
    exact mapVector_getElem ..
  have hkept {k : Fin 2} (hk : (declareArena s which size).rings[k].bound = true) :
      (declareArena s which size).rings[k] = s.rings[k] ∧ s.rings[k].bound = true ∧ s.rings[k].space ≠ which := by
    rw [hring] at hk ⊢
    unfold unbindIn at hk ⊢
    split
    · rename_i hc
      rw [if_pos hc] at hk
      cases hk
    · rename_i hc
      rw [if_neg hc] at hk
      exact ⟨rfl, hk, fun e => hc ⟨hk, e⟩⟩
  have hother {sp : Space} (hs : sp ≠ which) : (declareArena s which size).arena sp = s.arena sp := by
    rw [declareArena_arena, if_neg hs]
  refine ⟨fun sp => ?_, fun k hk => ?_, fun k hk => ?_, fun sp x hx => ?_⟩
  · rw [declareArena_arena]
    split
    · exact ⟨Memory.unspecified_wf, iff_of_true rfl hsize, fun x hx => by simp at hx⟩
    · exact h.arenas sp
  · obtain ⟨hr, hb, hs⟩ := hkept hk
    refine (h.rings.bound k hb).transfer hb hr (by rw [hother hs]) (by rw [hother hs]) fun x _ => ?_
    rw [State.byte?, State.byte?, hother hs]
  · rw [hring] at hk ⊢
    unfold unbindIn at hk ⊢
    split
    · rfl
    · rename_i hc
      rw [if_neg hc] at hk
      exact h.rings.unbound k hk
  · obtain ⟨hx0, hx1⟩ := hx
    obtain ⟨h0, -⟩ := hkept (k := 0) hx0.1
    obtain ⟨h1, -⟩ := hkept (k := 1) hx1.1
    exact h.rings.disjoint sp x ⟨h0 ▸ hx0, h1 ▸ hx1⟩

/-- The region an `RBINIT` binds fits (41_ring_buffer.md R85). -/
theorem rbinitMisfit_eq_false {inst : Fin 2} {space : Space} {enc : SampleFormat} {base size : BitVec 24}
    (h : rbinitMisfit s inst space enc base size = false) :
    base.toNat + size.toNat ≤ (s.arena space).size.toNat ∧
      (enc = .linear16 → base.toNat % 2 = 0 ∧ size.toNat % 2 = 0) ∧ Config.tail ≤ capacity enc size.toNat ∧
      ∀ x, base.toNat ≤ x → x < base.toNat + size.toNat → ¬ inRegion s.rings[otherRing inst] space x := by
  simp only [rbinitMisfit, Bool.or_eq_false_iff, decide_eq_false_iff_not, not_lt] at h
  obtain ⟨⟨⟨hin, heven⟩, hroom⟩, hfree⟩ := h
  refine ⟨hin, fun he => ?_, hroom, fun x h1 h2 => ?_⟩
  · subst he
    simpa [BitVec.getLsbD, Nat.testBit_zero] using heven
  · rintro ⟨hb, hs, h3, h4⟩
    simp only [hb, hs, decide_true, Bool.true_and, Bool.and_eq_false_iff, decide_eq_false_iff_not] at hfree
    omega

theorem otherRing_of_ne {i j : Fin 2} (h : i ≠ j) : otherRing i = j := by
  revert i j
  decide

/-- A binding of a region that fits (41_ring_buffer.md R84, R85). -/
theorem rbBind_memOk (h : MemOk s) {inst : Fin 2} {space : Space} {enc : SampleFormat} {base size : BitVec 24}
    (hd : (s.arena space).declared = true) (hm : rbinitMisfit s inst space enc base size = false) :
    MemOk (rbBind s inst space enc base size) := by
  obtain ⟨hin, heven, hroom, hfree⟩ := rbinitMisfit_eq_false hm
  have hwf := (h.arenas space).canonical
  have hring : (rbBind s inst space enc base size).rings[inst] = boundRing space enc base size := by
    rw [rbBind_eq, State.withRing_get_self]
  have hother {k : Fin 2} (hk : inst ≠ k) : (rbBind s inst space enc base size).rings[k] = s.rings[k] := by
    rw [rbBind_eq, State.withRing_get_other _ hk, State.mapMem_rings]
  have hdecl (sp : Space) : ((rbBind s inst space enc base size).arena sp).declared = (s.arena sp).declared := by
    rw [rbBind_eq, State.withRing_arena, State.mapMem_declared]
  have hsize (sp : Space) : ((rbBind s inst space enc base size).arena sp).size = (s.arena sp).size := by
    rw [rbBind_eq, State.withRing_arena, State.mapMem_size]
  have hbyte (sp : Space) (x : Nat) : (rbBind s inst space enc base size).byte? sp x =
      if sp = space ∧ base.toNat ≤ x ∧ x < base.toNat + size.toNat then some 0 else s.byte? sp x := by
    rw [rbBind_eq, State.withRing_byte?, State.mapMem_byte?]
    by_cases hs : sp = space
    · subst hs
      simp [Memory.get?_zeroFill hwf, State.byte?]
    · simp [hs]
  have houtside {k : Fin 2} (hk : inst ≠ k) {sp : Space} {x : Nat} (hx : inRegion s.rings[k] sp x) :
      ¬(sp = space ∧ base.toNat ≤ x ∧ x < base.toNat + size.toNat) := by
    rintro ⟨rfl, h1, h2⟩
    exact hfree x h1 h2 (otherRing_of_ne hk ▸ hx)
  refine ⟨fun sp => ?_, fun k hk => ?_, fun k hk => ?_, ringsDisjoint_of_other inst fun k hk sp x hx => ?_⟩
  · obtain ⟨canonical, sized, within⟩ := h.arenas sp
    refine ⟨?_, by rw [hdecl, hsize]; exact sized, fun x hx => ?_⟩
    · rw [rbBind_eq, State.withRing_arena, State.mapMem_mem]
      split
      · exact Memory.zeroFill_wf hwf _ _
      · exact canonical
    · have hb := hbyte sp x
      rw [State.byte?] at hb
      rw [hb] at hx
      rw [hsize]
      split at hx
      · rename_i hc
        obtain ⟨rfl, -, h2⟩ := hc
        exact h2.trans_le hin
      · exact within x hx
  · by_cases hik : inst = k
    · subst hik
      exact boundOk_boundRing hring (by rwa [hdecl]) (by rwa [hsize]) hroom heven fun x h1 h2 => by
        rw [hbyte, if_pos ⟨rfl, h1, h2⟩]
    · rw [hother hik] at hk
      exact (h.rings.bound k hk).transfer hk (hother hik) (hdecl _) (hsize _) fun x hx => by
        rw [hbyte, if_neg (houtside hik hx)]
  · have hik : inst ≠ k := by
      rintro rfl
      rw [hring] at hk
      cases hk
    rw [hother hik] at hk ⊢
    exact h.rings.unbound k hk
  · rw [hother hk] at hx
    rw [hring]
    rintro ⟨-, rfl, h1, h2⟩
    exact houtside hk hx ⟨rfl, h1, h2⟩

/-! ## The partition (20_memory.md R50) -/

theorem evenSize_toNat (b : BitVec 24) : (evenSize b).toNat = b.toNat / 2 * 2 := by
  have h : evenSize b = (b >>> 1) <<< 1 := by
    have hmask : ∀ k : Fin 24, (0xFFFFFE : BitVec 24)[k] = decide (1 ≤ k.val) := by decide
    ext k hk
    have hk' : (0xFFFFFE : BitVec 24)[k] = decide (1 ≤ k) := hmask ⟨k, hk⟩
    rw [evenSize, BitVec.getElem_and, hk']
    by_cases h1 : k < 1
    · simp [h1]
    · simp [h1, show 1 + (k - 1) = k by omega, BitVec.getLsbD_eq_getElem hk, show 1 ≤ k by omega]
  rw [h, BitVec.toNat_shiftLeft, BitVec.toNat_ushiftRight, Nat.shiftRight_eq_div_pow, Nat.shiftLeft_eq]
  omega

/-- The partition, where there is one (20_memory.md R50): mono, or stereo with `LARGE` at least as large as `SMALL`. -/
theorem partition?_cases {plan : Partition} (h : partition? s = some plan) :
    Config.seqNMin ≤ capacity s.format plan.ringSize.toNat ∧
      ((s.mono = true ∧ plan = ⟨evenSize s.large.size, false, .small, 0, s.small.size⟩) ∨
        (s.mono = false ∧ s.small.size.toNat ≤ s.large.size.toNat ∧
          plan = ⟨evenSize s.small.size, true, .large, s.small.size, s.large.size - s.small.size⟩)) := by
  cases hm : s.mono with
  | true =>
    simp only [partition?, hm, Bool.not_true, Bool.false_and, Bool.false_eq_true, if_false, if_true,
      Option.ite_none_left_eq_some, Option.some.injEq, not_lt] at h
    obtain ⟨hcap, -, rfl⟩ := h
    exact ⟨hcap, .inl ⟨rfl, rfl⟩⟩
  | false =>
    simp only [partition?, hm, Bool.not_false, Bool.true_and, Bool.false_eq_true, if_false, decide_eq_true_eq,
      Option.ite_none_left_eq_some, Option.some.injEq, not_lt] at h
    obtain ⟨hle, hcap, -, rfl⟩ := h
    exact ⟨hcap, .inr ⟨rfl, hle, rfl⟩⟩

/-- What a partition that fits promises: the ring buffer regions lie in their arenas and hold `SEQ_N_MIN` samples, and the workspace
lies in its arena, above the region there if there is one (20_memory.md R50, R51). -/
structure PlanFits (s : State) (plan : Partition) : Prop where
  room : Config.seqNMin ≤ capacity s.format plan.ringSize.toNat
  even : plan.ringSize.toNat % 2 = 0
  left : plan.ringSize.toNat ≤ s.large.size.toNat
  right : plan.stereo = true → plan.ringSize.toNat ≤ s.small.size.toNat
  stereo : plan.stereo = !s.mono
  inside : plan.wsBase.toNat + plan.wsSize.toNat ≤ (s.arena plan.wsSpace).size.toNat
  apart : plan.wsSpace = .large ∨ plan.stereo = true → plan.ringSize.toNat ≤ plan.wsBase.toNat

theorem planFits_of_partition? {plan : Partition} (h : partition? s = some plan) : PlanFits s plan := by
  obtain ⟨hcap, ⟨hm, rfl⟩ | ⟨hm, hle, rfl⟩⟩ := partition?_cases h
  · have he := evenSize_toNat s.large.size
    refine ⟨hcap, ?_, ?_, ?_, by simp [hm], ?_, ?_⟩
    · dsimp only
      omega
    · dsimp only
      omega
    · exact fun h => nomatch h
    · simp
    · rintro (h | h) <;> cases h
  · have he := evenSize_toNat s.small.size
    refine ⟨hcap, ?_, ?_, ?_, by simp [hm], ?_, ?_⟩
    · dsimp only
      omega
    · dsimp only
      omega
    · dsimp only
      omega
    · dsimp only [State.arena]
      rw [BitVec.toNat_sub_of_le (BitVec.le_def.mpr hle)]
      omega
    · dsimp only
      omega

/-! ## The carve-up (48_sequencer.md R152) -/

theorem carvedLarge_wf (plan : Partition) {m : Memory} (h : m.wf = true) : (carvedLarge plan m).wf = true := by
  unfold carvedLarge
  split
  · exact Memory.forget_wf (Memory.zeroFill_wf h _ _) _ _
  · exact Memory.zeroFill_wf h _ _

theorem carvedSmall_wf (plan : Partition) {m : Memory} (h : m.wf = true) : (carvedSmall plan m).wf = true := by
  have hr : (carvedSmallRing plan m).wf = true := by
    unfold carvedSmallRing
    split
    · exact Memory.zeroFill_wf h _ _
    · exact h
  unfold carvedSmall
  split
  · exact hr
  · exact Memory.forget_wf hr _ _

section

variable {plan : Partition} (h : ∀ sp, (s.arena sp).Ok) (hp : PlanFits s plan)

include h hp

/-- A byte of a ring buffer region after a carve-up is 0. -/
theorem carve_byte?_region {sp : Space} (hsp : sp = .large ∨ plan.stereo = true) {x : Nat} (hx : x < plan.ringSize.toNat) :
    (carve s plan).byte? sp x = some 0 := by
  rw [carve_byte? s plan (h .large).canonical (h .small).canonical, if_neg ?_, if_pos ⟨hsp, hx⟩]
  rintro ⟨rfl, h1, -⟩
  have := hp.apart hsp
  omega

theorem carve_arenaOk (sp : Space) : ((carve s plan).arena sp).Ok := by
  have hwf : ((carve s plan).arena sp).mem.wf = true := by
    rw [carve_eq]
    cases sp
    · exact carvedLarge_wf plan (h .large).canonical
    · exact carvedSmall_wf plan (h .small).canonical
  have hsame : ((carve s plan).arena sp).declared = (s.arena sp).declared ∧
      ((carve s plan).arena sp).size = (s.arena sp).size := by
    rw [carve_eq]
    cases sp <;> exact ⟨rfl, rfl⟩
  obtain ⟨hd, hz⟩ := hsame
  refine ⟨hwf, by rw [hd, hz]; exact (h sp).sized, fun x hx => ?_⟩
  have hb := carve_byte? s plan (h .large).canonical (h .small).canonical sp x
  rw [State.byte?] at hb
  rw [hb] at hx
  rw [hz]
  split at hx
  · cases hx
  · split at hx
    · rename_i hc
      obtain ⟨hsp, hlt⟩ := hc
      cases sp with
      | large => exact hlt.trans_le hp.left
      | small => exact hlt.trans_le (hp.right (by simpa using hsp))
    · exact (h sp).within x hx

/-- Both arenas and both ring buffers are in order after a carve-up. -/
theorem carve_memOk (hl : s.large.declared = true) (hs : s.small.declared = true) : MemOk (carve s plan) := by
  have hroom : Config.tail ≤ capacity s.format plan.ringSize.toNat := le_trans (by decide) hp.room
  have hzero : (0 : BitVec 24).toNat = 0 := rfl
  have heven : s.format = .linear16 → (0 : BitVec 24).toNat % 2 = 0 ∧ plan.ringSize.toNat % 2 = 0 :=
    fun _ => ⟨rfl, hp.even⟩
  have hr0 : (carve s plan).rings[0] = boundRing .large s.format 0 plan.ringSize := by
    rw [carve_eq]
    rfl
  have hr1 : (carve s plan).rings[1] =
      if plan.stereo then boundRing .small s.format 0 plan.ringSize else Ring.unbound := by
    rw [carve_eq]
    rfl
  have hb0 : BoundOk (carve s plan) 0 := by
    refine boundOk_boundRing hr0 (by rw [carve_eq]; exact hl) ?_ hroom heven fun x _ hx =>
      carve_byte?_region h hp (.inl rfl) (by omega)
    have : ((carve s plan).arena .large).size = s.large.size := by rw [carve_eq]; rfl
    rw [this, hzero, Nat.zero_add]
    exact hp.left
  have hb1 : plan.stereo = true → BoundOk (carve s plan) 1 := by
    intro hst
    rw [hst] at hr1
    refine boundOk_boundRing hr1 (by rw [carve_eq]; exact hs) ?_ hroom heven fun x _ hx =>
      carve_byte?_region h hp (.inr hst) (by omega)
    have : ((carve s plan).arena .small).size = s.small.size := by rw [carve_eq]; rfl
    rw [this, hzero, Nat.zero_add]
    exact hp.right hst
  refine ⟨carve_arenaOk h hp, Fin.forall_fin_two.mpr ⟨fun _ => hb0, fun hb => hb1 ?_⟩,
    Fin.forall_fin_two.mpr ⟨fun hb => ?_, fun hb => ?_⟩, fun sp x => ?_⟩
  · by_contra hst
    have hb' : (carve s plan).rings[1].bound = true := hb
    rw [hr1, if_neg hst] at hb'
    cases hb'
  · have hb' : (carve s plan).rings[0].bound = false := hb
    rw [hr0] at hb'
    cases hb'
  · have hb' : (carve s plan).rings[1].bound = false := hb
    show (carve s plan).rings[1] = Ring.unbound
    rw [hr1] at hb' ⊢
    split at hb'
    · cases hb'
    · exact if_neg ‹_›
  · rw [hr0, hr1]
    rintro ⟨⟨-, rfl, -⟩, hx1⟩
    split at hx1
    · obtain ⟨-, hs, -⟩ := hx1
      cases hs
    · obtain ⟨hb, -⟩ := hx1
      cases hb

end

/-- The ring buffers and the arenas a full re-partition leaves are those of its carve-up. -/
theorem background_fullReset_memory (s : State) (plan : Partition) :
    (background (fullReset s plan)).large = (carve s.thaw plan).large ∧
      (background (fullReset s plan)).small = (carve s.thaw plan).small ∧
      (background (fullReset s plan)).rings = carvedRings s.format plan := by
  obtain ⟨c, rfl, e⟩ := fullReset_eq s plan
  rw [background_eq, e]
  refine ⟨rfl, rfl, ?_⟩
  rw [carve_eq]
  rfl

theorem fullReset_memOk (h : MemOk s) {plan : Partition} (hl : s.large.declared = true) (hs : s.small.declared = true)
    (hp : partition? s = some plan) : MemOk (background (fullReset s plan)) := by
  obtain ⟨h1, h2, h3⟩ := background_fullReset_memory s plan
  have hp' : PlanFits s.thaw plan := planFits_of_partition? hp
  refine (carve_memOk (h.congr (t := s.thaw) rfl rfl rfl).arenas hp' hl hs).congr h1 h2 ?_
  rw [h3, carve_eq]
  rfl

end

end Sys2Proof.Machine
end

section
/-! PROOFS. The invariant of a run after every step: the parts that speak of one unit, then the block's readiness, then the whole. -/

namespace Sys2Proof.Machine

section

variable {s t u : State} {i : Instr}

/-! ## Arenas and ring buffers after every effect -/

/-- What `PROCESS` records goes to ring buffers that are bound (48_sequencer.md R163). -/
theorem recordStage_keep (h : MemOk s) (h0 : s.rings[0].bound = true) (h1 : s.mono = false → s.rings[1].bound = true)
    (x : List Frame) : MemOk (recordStage s x) ∧ Recorded s (recordStage s x) := by
  unfold recordStage
  split
  · exact ⟨h, .of_eq rfl rfl rfl⟩
  · obtain ⟨hm, hr⟩ := rbWrite_keep (i := 0) h h0 (x.map (·.l)) (!s.frozen)
    dsimp only
    split
    · exact ⟨hm, hr⟩
    · rename_i hmono
      have hb : (rbWrite s 0 (x.map (·.l)) (!s.frozen)).rings[(1 : Fin 2)].bound = true :=
        (hr.regions 1).bound.trans (h1 (by simpa using hmono))
      obtain ⟨hm', hr'⟩ := rbWrite_keep hm hb (x.map (·.r)) (!s.frozen)
      exact ⟨hm', hr.trans hr'⟩

/-- A `PROCESS` that passes its gate finds no reset pending (48_sequencer.md R158). -/
theorem resetPending_of_not_gated (h : s.gated = false) : s.resetPending = false := by
  simp only [State.gated, Bool.or_eq_false_iff] at h
  exact h.1.2

theorem processBlock_keep (h : MemOk s) (hr : ReadyOk s) (hi : s.inited = true) (hg : s.gated = false) :
    MemOk (processBlock s) ∧ Recorded s (processBlock s) := by
  have hp := resetPending_of_not_gated hg
  have hin := processInput_eq s
  have hrec := processBlock_eq s
  generalize processInput s = a at hin hrec
  obtain ⟨r, x⟩ := a
  dsimp only at hin hrec
  have hm : r.mono = s.mono := by rw [hin]; rfl
  have hrings : r.rings = s.rings := by rw [hin]
  have hl : r.large = s.large := by rw [hin]
  have hs : r.small = s.small := by rw [hin]
  obtain ⟨hmem, hkeep⟩ := recordStage_keep (h.congr hl hs hrings) (by rw [hrings]; exact (hr.left hi hp).1)
    (fun hmono => by rw [hrings]; exact (hr.right hi hp (hm ▸ hmono)).1) x
  have e1 : (processBlock s).large = (recordStage r x).large := by rw [hrec]
  have e2 : (processBlock s).small = (recordStage r x).small := by rw [hrec]
  have e3 : (processBlock s).rings = (recordStage r x).rings := by rw [hrec]
  exact ⟨hmem.congr e1 e2 e3, (Recorded.of_eq hl hs hrings).trans (hkeep.trans (.of_eq e1 e2 e3))⟩

/-- Every effect keeps the arenas and the ring buffers in order. -/
theorem Completes.memOk (hc : Completes s i u) (h : MemOk s) (hr : ReadyOk s)
    (hd : s.inited = true → s.large.declared = true ∧ s.small.declared = true) : MemOk u := by
  cases hc with
  | arena which size _ pos small =>
    refine declareArena_memOk h which fun e => pos (BitVec.eq_of_toNat_eq ?_)
    have := congrArg BitVec.toNat e
    rw [BitVec.toNat_setWidth] at this
    rwa [Nat.mod_eq_of_lt (by omega)] at this
  | init sr =>
    refine ⟨h.arenas, ringsOk_of_unbound fun k => ?_⟩
    simp [initBlock, initRegisters]
  | prepareFull plan after fits =>
    obtain ⟨hl, hs⟩ := hd after
    exact fullReset_memOk h hl hs fits
  | prepareLight =>
    obtain ⟨w, k, e⟩ := background_lightReset_frame s
    exact h.congr (by rw [e]) (by rw [e]) (by rw [e])
  | prepareNone =>
    obtain ⟨w, k, e⟩ := background_frame s
    exact h.congr (by rw [e]) (by rw [e]) (by rw [e])
  | processBlock _ after _ gate => exact (processBlock_keep h hr after gate).1
  | rbinit inst space enc base size _ declared fits => exact rbBind_memOk h declared fits
  | rbwf inst allow count stride src bound => exact (rbWrite_keep h bound _ allow).1
  | _ => exact h.congr rfl rfl rfl

/-! ## The block's readiness (48_sequencer.md R174) -/

theorem State.format_congr (h : t.quality = s.quality) : t.format = s.format := by
  unfold State.format State.lofi
  rw [h]

theorem State.mono_congr (h : t.quality = s.quality) : t.mono = s.mono := by
  unfold State.mono
  rw [h]

theorem readyOk_of_before (hi : t.inited = false) (hp : t.prevMode = none) : ReadyOk t := by
  constructor
  case before => exact fun _ => hp
  all_goals exact fun h => absurd (hi.symm.trans h) Bool.false_ne_true

theorem readyOk_of_pending (hb : t.inited = false → t.prevMode = none) (hr : t.resetPending = true) : ReadyOk t := by
  constructor
  case before => exact hb
  all_goals exact fun _ h => absurd (h.symm.trans hr) Bool.false_ne_true

/-- Readiness stands where the regions of the ring buffers, the bytes outside them, the mode machine and the workspace stand. -/
theorem ReadyOk.recorded (h : ReadyOk s) (hrec : Recorded s t) (hi : t.inited = s.inited)
    (hr : t.resetPending = s.resetPending) (hq : t.quality = s.quality)
    (hp : t.prevMode = s.prevMode ∨ s.inited = true ∧ t.prevMode ≠ none)
    (hw : t.wsSpace = s.wsSpace ∧ t.wsBase = s.wsBase ∧ t.wsSize = s.wsSize) : ReadyOk t := by
  obtain ⟨before, committed, left, right, single, workspace⟩ := h
  obtain ⟨hw1, hw2, hw3⟩ := hw
  have g0 : SameRegion s.rings[0] t.rings[0] := hrec.regions 0
  have g1 : SameRegion s.rings[1] t.rings[1] := hrec.regions 1
  constructor <;> rw [hi]
  · intro h0
    rcases hp with hp | ⟨hp, -⟩
    · exact hp.trans (before h0)
    · exact absurd (h0.symm.trans hp) Bool.false_ne_true
  · intro h1 h2
    rcases hp with hp | ⟨-, hp⟩
    · rw [hp]
      exact committed h1 (hr ▸ h2)
    · exact hp
  · rw [hr, g0.bound, g0.enc, g0.n, State.format_congr hq]
    exact left
  · rw [hr, g0.n, g1.bound, g1.enc, g1.n, State.format_congr hq, State.mono_congr hq]
    exact right
  · rw [hr, g1.bound, State.mono_congr hq]
    exact single
  · intro h1 h2
    obtain ⟨hin, hfree⟩ := workspace h1 (hr ▸ h2)
    rw [hw1, hw2, hw3, hrec.sizes]
    refine ⟨hin, fun x hx hx' => ?_⟩
    obtain ⟨hnone, hout⟩ := hfree x hx hx'
    exact ⟨(hrec.outside _ x hout).trans hnone, fun k hk => hout k (((hrec.regions k).inRegion_iff _ _).mp hk)⟩

/-- A full re-partition leaves the block ready (48_sequencer.md R152, R174). -/
theorem fullReset_readyOk (ha : ∀ sp, (s.arena sp).Ok) (hi : s.inited = true) {plan : Partition}
    (fits : partition? s = some plan) : ReadyOk (background (fullReset s plan)) := by
  have hp : PlanFits s.thaw plan := planFits_of_partition? fits
  obtain ⟨hl, hs, hrings⟩ := background_fullReset_memory s plan
  obtain ⟨hi', hprev, hq, hw1, hw2, hw3⟩ : (background (fullReset s plan)).inited = s.inited ∧
      (background (fullReset s plan)).prevMode = some s.mode ∧ (background (fullReset s plan)).quality = s.quality ∧
      (background (fullReset s plan)).wsSpace = plan.wsSpace ∧ (background (fullReset s plan)).wsBase = plan.wsBase ∧
      (background (fullReset s plan)).wsSize = plan.wsSize := by
    obtain ⟨ml, ms, rs, w, k, e⟩ := background_fullReset_frame s plan
    rw [e]
    exact ⟨rfl, rfl, rfl, rfl, rfl, rfl⟩
  have harena (sp : Space) : (background (fullReset s plan)).arena sp =
      (carve s.thaw plan).arena sp := by cases sp <;> assumption
  have hsize (sp : Space) : ((background (fullReset s plan)).arena sp).size = (s.arena sp).size := by
    rw [harena, carve_eq]
    cases sp <;> rfl
  have hr0 : (background (fullReset s plan)).rings[0] = boundRing .large s.format 0 plan.ringSize := by rw [hrings]; rfl
  have hr1 : (background (fullReset s plan)).rings[1] =
      if plan.stereo then boundRing .small s.format 0 plan.ringSize else Ring.unbound := by rw [hrings]; rfl
  generalize background (fullReset s plan) = t at *
  have hst : plan.stereo = !t.mono := hp.stereo.trans (congrArg _ (State.mono_congr hq).symm)
  constructor
  · exact fun h => absurd (h.symm.trans (hi'.trans hi)) Bool.false_ne_true
  · exact fun _ _ h => by rw [hprev] at h; cases h
  · intro _ _
    rw [hr0, State.format_congr hq, boundRing_n]
    exact ⟨rfl, rfl, hp.room⟩
  · intro _ _ hm
    rw [hr0, hr1, hst, hm, State.format_congr hq]
    exact ⟨rfl, rfl, rfl⟩
  · intro _ _ hm
    rw [hr1, hst, hm]
    rfl
  · intro _ _
    rw [hw1, hw2, hw3, hsize]
    refine ⟨hp.inside, fun x hx hx' => ⟨?_, Fin.forall_fin_two.mpr ⟨?_, ?_⟩⟩⟩
    · rw [State.byte?, harena]
      exact (carve_byte? s.thaw plan (ha .large).canonical (ha .small).canonical plan.wsSpace x).trans (if_pos ⟨rfl, hx, hx'⟩)
    · show ¬ inRegion t.rings[0] plan.wsSpace x
      rw [hr0]
      rintro ⟨-, hsp, -, hlt⟩
      have hap := hp.apart (.inl hsp.symm)
      have hlt' : x < 0 + plan.ringSize.toNat := hlt
      omega
    · show ¬ inRegion t.rings[1] plan.wsSpace x
      rw [hr1]
      split
      · rename_i hstereo
        rintro ⟨-, -, -, hlt⟩
        have hap := hp.apart (.inr hstereo)
        have hlt' : x < 0 + plan.ringSize.toNat := hlt
        omega
      · rintro ⟨hb, -⟩
        cases hb

/-- Every effect keeps the block ready. -/
theorem Completes.readyOk (hc : Completes s i u) (h : ReadyOk s) (hm : MemOk s) : ReadyOk u := by
  cases hc with
  | arena which size before =>
    rw [declareArena_eq]
    exact readyOk_of_before before (h.before before)
  | init sr => exact readyOk_of_pending nofun rfl
  | setqual quality hq =>
    by_cases he : quality.setWidth 2 = s.quality
    · exact h.recorded (.of_eq rfl rfl rfl) rfl (by simp [he]) he (.inl rfl) ⟨rfl, rfl, rfl⟩
    · exact readyOk_of_pending h.before (by simp [he])
  | rstbuf => exact readyOk_of_pending h.before rfl
  | prepareFull plan after fits => exact fullReset_readyOk hm.arenas after fits
  | prepareLight after =>
    obtain ⟨w, k, e⟩ := background_lightReset_frame s
    rw [e]
    exact h.recorded (.of_eq rfl rfl rfl) rfl rfl rfl (.inr ⟨after, nofun⟩) ⟨rfl, rfl, rfl⟩
  | prepareNone =>
    obtain ⟨w, k, e⟩ := background_frame s
    rw [e]
    exact h.recorded (.of_eq rfl rfl rfl) rfl rfl rfl (.inl rfl) ⟨rfl, rfl, rfl⟩
  | processBlock _ after _ gate =>
    obtain ⟨-, hrec⟩ := processBlock_keep hm h after gate
    obtain ⟨v, ml, ms, rs, g, w, k, b, up, f, o, e⟩ := processBlock_frame s
    rw [e] at hrec ⊢
    exact h.recorded hrec rfl rfl rfl (.inl rfl) ⟨rfl, rfl, rfl⟩
  | rbinit inst space enc base size before =>
    obtain ⟨ml, ms, e⟩ := rbBind_frame s inst space enc base size
    rw [e]
    exact readyOk_of_before before (h.before before)
  | rbwf inst allow count stride src bound =>
    obtain ⟨-, hrec⟩ := rbWrite_keep hm bound (rbwfSamples s count stride src) allow
    obtain ⟨ml, ms, q, e⟩ := (rbWrite_written s inst (rbwfSamples s count stride src) allow).record
    rw [e] at hrec ⊢
    exact h.recorded hrec rfl rfl rfl (.inl rfl) ⟨rfl, rfl, rfl⟩
  | _ => exact h.recorded (.of_eq rfl rfl rfl) rfl rfl rfl (.inl rfl) ⟨rfl, rfl, rfl⟩

/-! ## Life-cycle bits and frame buffers -/

/-- What the life-cycle bits promise of the rate registers and the arenas (10_state.md R19, R23). -/
structure LifeBits (s : State) : Prop where
  tables : s.tablesValid = true → s.tblSr ≠ 0
  inited : s.inited = true → s.tablesValid = true ∧ s.large.declared = true ∧ s.small.declared = true ∧ s.sr ≠ 0

theorem Completes.lifeBits (hc : Completes s i u) (h : LifeBits s) : LifeBits u := by
  have hw := hc.writesOnly
  by_cases htbl : ∃ sr, i = .tblinit sr
  · obtain ⟨sr, rfl⟩ := htbl
    cases hc with
    | tblinit _ pos => exact ⟨fun _ => pos, fun hi => ⟨rfl, (h.inited hi).2⟩⟩
  by_cases hinit : ∃ sr, i = .init sr
  · obtain ⟨sr, rfl⟩ := hinit
    cases hc with
    | init _ tables large small pos => exact ⟨h.tables, fun _ => ⟨tables, large, small, pos⟩⟩
  have ht : u.tablesValid = s.tablesValid := by_contra fun e => htbl (hw.tablesValid e)
  have hts : u.tblSr = s.tblSr := by_contra fun e => htbl (hw.tblSr e)
  have hi : u.inited = s.inited := by_contra fun e => hinit (hw.inited e)
  have hsr : u.sr = s.sr := by_contra fun e => hinit (hw.sr e)
  have hd (after : s.inited = true) (sp : Space) : (u.arena sp).declared = (s.arena sp).declared := by
    by_contra e
    obtain ⟨size, rfl⟩ := hw.arenas sp (.inr e)
    cases hc with
    | arena _ _ before => exact absurd (before.symm.trans after) Bool.false_ne_true
  refine ⟨by rw [ht, hts]; exact h.tables, fun after => ?_⟩
  rw [hi] at after
  have hl : u.large.declared = s.large.declared := hd after .large
  have hs : u.small.declared = s.small.declared := hd after .small
  rw [ht, hl, hs, hsr]
  exact h.inited after

theorem processEffects_fbbuf_length {n : Nat} (s : State) (v : Vector Frame n) : (processEffects s v).fbbuf.length = n := by
  simp only [processEffects, reverbStage, mixStage, Vector.length_toList]

theorem processBlock_fbbuf_length (s : State) : (processBlock s).fbbuf.length = s.blockSize :=
  processEffects_fbbuf_length _ _

theorem processBlock_outbuf_length (s : State) : (processBlock s).outbuf.length = s.blockSize := by
  rw [processBlock_outbuf, Vector.length_toList]

/-- Every effect keeps the lengths of the frame buffers. -/
theorem Completes.buffersOk (hc : Completes s i u) (h : BuffersOk s) : BuffersOk u := by
  obtain ⟨hf, hin, ho⟩ := h
  obtain ⟨-, -, -, -, -, -, hhw, -⟩ := hc.bookkeeping_eq
  have hb : u.blockSize = s.blockSize := congrArg HwParams.blockSize hhw
  rw [BuffersOk, hb]
  refine ⟨?_, ?_, ?_⟩
  · by_cases he : u.fbbuf = s.fbbuf
    · rwa [he]
    · rcases hc.writesOnly.pipeline (by tauto) with ⟨size, rfl⟩ | ⟨sr, rfl⟩
      · cases hc with
        | processBypass | processSilent => exact hf
        | processBlock => exact processBlock_fbbuf_length s
      · cases hc
        exact zeroBlock_length _
  · by_cases he : u.inbuf = s.inbuf
    · rwa [he]
    · obtain ⟨k, l, r, rfl⟩ := hc.writesOnly.inbuf he
      cases hc
      rwa [List.length_set]
  · by_cases he : u.outbuf = s.outbuf
    · rwa [he]
    · obtain ⟨size, rfl⟩ := hc.writesOnly.outbuf he
      cases hc with
      | processBypass => exact hin
      | processSilent => exact zeroBlock_length _
      | processBlock => exact processBlock_outbuf_length s

/-! ## The invariant of a run -/

/-- The invariant of a run but for the fault record. -/
structure UnitsOk (s : State) : Prop where
  mem : MemOk s
  life : LifeBits s
  params : ParamsOk s
  derived : DerivedOk s.drv
  search : SearchOk s.search
  svfs : ∀ i : Fin 8, SvfOk s.svfs[i]
  grains : ∀ k : Fin Config.maxGrains, GrainOk s.grains.slots[k]
  ready : ReadyOk s
  buffers : BuffersOk s

/-- The fault record: empty without a fault, a cause with one (10_state.md R26). -/
structure FaultOk (s : State) : Prop where
  noFault : s.fault = false → s.faultCause = 0 ∧ s.faultInfo = 0 ∧ s.faultCmdLo = 0 ∧ s.faultCmdHi = 0
  cause : s.fault = true → 1 ≤ s.faultCause.toNat ∧ s.faultCause.toNat ≤ 5

theorem inv_iff : s.Inv ↔ UnitsOk s ∧ FaultOk s := by
  constructor
  · rintro ⟨large, small, ⟨tables, inited, noFault, cause⟩, params, derived, search, svfs, grains, rings, ready, buffers⟩
    exact ⟨⟨⟨space_forall.mpr ⟨large, small⟩, rings⟩, ⟨tables, inited⟩, params, derived, search, svfs, grains, ready,
      buffers⟩, noFault, cause⟩
  · rintro ⟨⟨⟨arenas, rings⟩, ⟨tables, inited⟩, params, derived, search, svfs, grains, ready, buffers⟩, noFault, cause⟩
    exact ⟨arenas .large, arenas .small, ⟨tables, inited, noFault, cause⟩, params, derived, search, svfs, grains, rings,
      ready, buffers⟩

theorem unitsOk_booked (s : State) (f : Bool) (c : BitVec 3) (a lo hi n : BitVec 32) (ins : List HostEvent)
    (r : Option Word) (d : Nat) (h : UnitsOk s) : UnitsOk (s.booked f c a lo hi n ins r d) := by
  obtain ⟨mem, ⟨tables, inited⟩, params, derived, search, svfs, grains, ready, buffers⟩ := h
  exact ⟨mem.congr rfl rfl rfl, ⟨tables, inited⟩, params.congr rfl rfl rfl, derived, search, svfs, grains,
    ready.recorded (.of_eq rfl rfl rfl) rfl rfl rfl (.inl rfl) ⟨rfl, rfl, rfl⟩, buffers⟩

theorem unitsOk_reset (hw : HwParams) : UnitsOk (State.resetFor hw) := by
  have harena : Arena.undeclared.Ok :=
    ⟨Memory.unspecified_wf, iff_of_false Bool.false_ne_true (not_not_intro rfl), fun x hx => by simp [Arena.undeclared] at hx⟩
  refine ⟨⟨space_forall.mpr ⟨harena, harena⟩, ringsOk_of_unbound fun k => by simp [State.resetFor]⟩, ⟨nofun, nofun⟩,
    paramsOk_reset hw, .inl rfl, searchOk_idle, svfsOk_reset hw, grainOk_fresh, readyOk_of_before rfl rfl, ?_⟩
  simp [BuffersOk, State.resetFor, State.blockSize]

/-- Every effect keeps the invariant but for the fault record. -/
theorem Completes.unitsOk (hc : Completes s i u) (h : UnitsOk s) : UnitsOk u := by
  obtain ⟨mem, life, params, derived, search, svfs, grains, ready, buffers⟩ := h
  have hd (after : s.inited = true) : s.large.declared = true ∧ s.small.declared = true := by
    obtain ⟨-, hl, hs, -⟩ := life.inited after
    exact ⟨hl, hs⟩
  exact ⟨hc.memOk mem ready hd, hc.lifeBits life, hc.paramsOk params, hc.derivedOk params derived, hc.searchOk search,
    hc.svfsOk svfs, hc.grainsOk params grains, hc.readyOk ready mem, hc.buffersOk buffers⟩

/-- A fault taken leaves its cause in the record (60_exceptions.md R186). -/
theorem faultOk_faulted (s : State) (c : Cause) (info : Nat) (w : Cmd) : FaultOk (s.faulted c info w) :=
  ⟨nofun, fun _ => causeCode_range c⟩

/-- Every step keeps the fault record in order. -/
theorem faultOk_step (h : FaultOk s) (hst : step s = .next t) : FaultOk t := by
  rcases step_cases hst with ⟨-, ht⟩ | ⟨rest, -, ht⟩ | ⟨w, rest, i, -, -, ht⟩ | ⟨w, rest, e, -, -, ht⟩
  · cases ht
    exact h
  · cases ht
    exact ⟨fun _ => ⟨rfl, rfl, rfl, rfl⟩, nofun⟩
  · cases exec_ends ht.symm with
    | discarded => exact ⟨h.noFault, h.cause⟩
    | faulted _ c info w => exact faultOk_faulted _ c info w
    | completed _ r hc =>
      obtain ⟨e1, e2, e3, e4, e5, -⟩ := hc.bookkeeping_eq
      constructor
      · simpa only [e1, e2, e3, e4, e5] using h.noFault
      · simpa only [e1, e2] using h.cause
  · rcases unlessFaulted_cases ht.symm with ⟨-, ht⟩ | ⟨-, ht⟩
    · cases ht
      exact ⟨h.noFault, h.cause⟩
    · cases ht
      exact faultOk_faulted _ _ _ _

/-- Settles O8: every effect keeps the invariant of the units, every end of a command that of the fault record. -/
theorem everyStepKeepsTheInvariant : Obligations.EveryStepKeepsTheInvariant := by
  unfold Obligations.EveryStepKeepsTheInvariant
  intro s t h hst
  obtain ⟨hu, hf⟩ := inv_iff.mp h
  exact inv_iff.mpr ⟨step_keeps unitsOk_booked unitsOk_reset (fun _ _ _ h hc => hc.unitsOk h) hu hst, faultOk_step hf hst⟩

/-- Settles O16, a part of the invariant of a run (O8). -/
theorem stepKeepsRingInvariants : Obligations.StepKeepsRingInvariants := by
  unfold Obligations.StepKeepsRingInvariants
  exact fun s t h hst => (everyStepKeepsTheInvariant s t h hst).rings

end

end Sys2Proof.Machine
end

section
/-! PROOFS. The canonical form of arena bytes (20_memory.md R42, log entry 12): two canonical memories that read alike are equal, and
every step keeps the form. -/

namespace Sys2Proof.Machine

/-! ## A set of addresses has one list of ranges -/

/-- The end of the first range is no member. -/
theorem not_rangesMem_end {k a b : Nat} {rest : List (Nat × Nat)} (h : rangesOrdered k ((a, b) :: rest) = true) :
    ¬ rangesMem ((a, b) :: rest) b = true := by
  obtain ⟨-, -, hrest⟩ := (rangesOrdered_cons ..).mp h
  rw [rangesMem_cons]
  rintro (hb | hb)
  · omega
  · have := le_of_rangesMem hrest hb
    omega

/-- The members above the first range are those of the rest. -/
theorem rangesMem_tail {k a b : Nat} {rest : List (Nat × Nat)} (h : rangesOrdered k ((a, b) :: rest) = true) (x : Nat) :
    rangesMem rest x = true ↔ b < x ∧ rangesMem ((a, b) :: rest) x = true := by
  obtain ⟨-, -, hrest⟩ := (rangesOrdered_cons ..).mp h
  rw [rangesMem_cons]
  constructor
  · exact fun hx => ⟨le_of_rangesMem hrest hx, .inr hx⟩
  · rintro ⟨hlt, hx | hx⟩
    · omega
    · exact hx

/-- The first range starts at the least member and ends at the first address past it that is no member, so it starts and ends no
later than the first range of any list with the same members. -/
theorem firstRange_le {j k a b c d : Nat} {xs ys : List (Nat × Nat)} (hx : rangesOrdered j ((a, b) :: xs) = true)
    (hy : rangesOrdered k ((c, d) :: ys) = true)
    (h : ∀ x, rangesMem ((a, b) :: xs) x = true ↔ rangesMem ((c, d) :: ys) x = true) : a ≤ c ∧ (a = c → b ≤ d) := by
  obtain ⟨-, hab, hxs⟩ := (rangesOrdered_cons ..).mp hx
  obtain ⟨-, hcd, -⟩ := (rangesOrdered_cons ..).mp hy
  constructor
  · have hc : rangesMem ((a, b) :: xs) c = true := (h c).mpr ((rangesMem_cons ..).mpr (.inl ⟨le_refl c, hcd⟩))
    exact le_of_rangesMem ((rangesOrdered_cons ..).mpr ⟨le_refl a, hab, hxs⟩) hc
  · rintro rfl
    by_contra hdb
    exact not_rangesMem_end hy ((h d).mp ((rangesMem_cons ..).mpr (.inl (by omega))))

theorem ranges_ext {k : Nat} {xs ys : List (Nat × Nat)} (hx : rangesOrdered k xs = true) (hy : rangesOrdered k ys = true)
    (h : ∀ x, rangesMem xs x = true ↔ rangesMem ys x = true) : xs = ys := by
  induction xs generalizing k ys with
  | nil =>
    cases ys with
    | nil => rfl
    | cons r ys =>
      obtain ⟨-, hcd, -⟩ := (rangesOrdered_cons ..).mp hy
      have := (h r.1).mpr ((rangesMem_cons ..).mpr (.inl ⟨le_refl _, hcd⟩))
      simp at this
  | cons r xs ih =>
    cases ys with
    | nil =>
      obtain ⟨-, hab, -⟩ := (rangesOrdered_cons ..).mp hx
      have := (h r.1).mp ((rangesMem_cons ..).mpr (.inl ⟨le_refl _, hab⟩))
      simp at this
    | cons q ys =>
      obtain ⟨a, b⟩ := r
      obtain ⟨c, d⟩ := q
      obtain ⟨hac, hbd⟩ := firstRange_le hx hy h
      obtain ⟨hca, hdb⟩ := firstRange_le hy hx fun x => (h x).symm
      obtain rfl : a = c := by omega
      obtain rfl : b = d := le_antisymm (hbd rfl) (hdb rfl)
      obtain ⟨-, -, hxs⟩ := (rangesOrdered_cons ..).mp hx
      obtain ⟨-, -, hys⟩ := (rangesOrdered_cons ..).mp hy
      rw [ih hxs hys fun x => by rw [rangesMem_tail hx, rangesMem_tail hy, h]]

/-! ## A list of cells in order is its lookups -/

theorem cellLookup_cons_self (a : Nat) (v : Byte) (rest : List Host.Cell) : cellLookup ((a, v) :: rest) a = some v := by
  simp [cellLookup]

/-- What is looked up in the rest of a list in order. -/
theorem cellLookup_tail {k a : Nat} {v : Byte} {rest : List Host.Cell} (h : cellsOrdered k ((a, v) :: rest) = true) (x : Nat) :
    cellLookup rest x = if a < x then cellLookup ((a, v) :: rest) x else none := by
  obtain ⟨-, -, hrest⟩ := (cellsOrdered_cons ..).mp h
  split
  · rw [cellLookup, if_neg (by omega : ¬a = x)]
  · exact cellLookup_lt hrest (by dsimp only; omega)

/-- The first listed address is at most the first of any list in order with the same lookups. -/
theorem firstCell_le {k a c : Nat} {v w : Byte} {xs ys : List Host.Cell} (hx : cellsOrdered k ((a, v) :: xs) = true)
    (h : ∀ x, cellLookup ((a, v) :: xs) x = cellLookup ((c, w) :: ys) x) : a ≤ c := by
  by_contra hca
  obtain ⟨-, hv, hxs⟩ := (cellsOrdered_cons ..).mp hx
  have hnone := cellLookup_lt ((cellsOrdered_cons a ..).mpr ⟨le_refl a, hv, hxs⟩) (by omega : c < a)
  rw [h, cellLookup_cons_self] at hnone
  cases hnone

theorem cells_ext {k : Nat} {xs ys : List Host.Cell} (hx : cellsOrdered k xs = true) (hy : cellsOrdered k ys = true)
    (h : ∀ x, cellLookup xs x = cellLookup ys x) : xs = ys := by
  induction xs generalizing k ys with
  | nil =>
    cases ys with
    | nil => rfl
    | cons c ys => exact nomatch (h c.1).trans (cellLookup_cons_self c.1 c.2 ys)
  | cons c xs ih =>
    cases ys with
    | nil => exact nomatch (h c.1).symm.trans (cellLookup_cons_self c.1 c.2 xs)
    | cons d ys =>
      obtain ⟨a, v⟩ := c
      obtain ⟨b, w⟩ := d
      obtain rfl : a = b := le_antisymm (firstCell_le hx h) (firstCell_le hy fun x => (h x).symm)
      have hvw := h a
      rw [cellLookup_cons_self, cellLookup_cons_self, Option.some.injEq] at hvw
      obtain ⟨-, -, hxs⟩ := (cellsOrdered_cons ..).mp hx
      obtain ⟨-, -, hys⟩ := (cellsOrdered_cons ..).mp hy
      rw [hvw, ih hxs hys fun x => by rw [cellLookup_tail hx, cellLookup_tail hy, h]]

/-- A list in order holds no byte 0. -/
theorem ne_zero_of_cellLookup {k a : Nat} {b : Byte} {xs : List Host.Cell} (h : cellsOrdered k xs = true)
    (hl : cellLookup xs a = some b) : b ≠ 0 := by
  induction xs generalizing k with
  | nil => cases hl
  | cons c xs ih =>
    obtain ⟨i, v⟩ := c
    obtain ⟨-, hv, hxs⟩ := (cellsOrdered_cons ..).mp h
    rw [cellLookup] at hl
    split at hl
    · cases hl
      exact hv
    · exact ih hxs hl

/-! ## A canonical memory is its readings -/

/-- The specified addresses are those that read as some byte. -/
theorem Memory.isSome_get?_iff {m : Memory} (h : m.wf = true) (a : Nat) : (m.get? a).isSome = true ↔ rangesMem m.known a = true := by
  unfold get? unlisted
  split
  · rename_i hl
    exact iff_of_true rfl (known_of_lookup h hl)
  · split <;> simp [*]

/-- The listed bytes are those that do not read as 0. -/
theorem Memory.cellLookup_eq {m : Memory} (h : m.wf = true) (a : Nat) :
    cellLookup m.cells a = (m.get? a).filter fun b => decide (b ≠ 0) := by
  obtain ⟨-, hcells, -⟩ := m.wf_iff.mp h
  unfold get? unlisted
  split
  · rename_i hl
    have hne := ne_zero_of_cellLookup hcells hl
    simpa [hl, Option.filter] using hne
  · rename_i hl
    rw [hl]
    split <;> rfl

/-- Settles O10: the readings give the specified addresses and the nonzero bytes, and each of the two lists is determined by them. -/
theorem canonicalMemoriesAreEqual : Obligations.CanonicalMemoriesAreEqual := by
  unfold Obligations.CanonicalMemoriesAreEqual
  intro m n hm hn h
  obtain ⟨hmr, hmc, -⟩ := m.wf_iff.mp hm
  obtain ⟨hnr, hnc, -⟩ := n.wf_iff.mp hn
  have hknown : m.known = n.known :=
    ranges_ext hmr hnr fun x => by rw [← m.isSome_get?_iff hm, ← n.isSome_get?_iff hn, h]
  have hcells : m.cells = n.cells := cells_ext hmc hnc fun x => by rw [m.cellLookup_eq hm, n.cellLookup_eq hn, h]
  cases m
  cases n
  exact congrArg₂ Memory.mk hknown hcells

/-! ## Every step keeps the canonical form -/

/-- The bytes of both arenas are in canonical form. -/
def CanonicalMem (s : State) : Prop := ∀ sp, (s.arena sp).mem.wf = true

section

variable {s t u : State} {i : Instr}

theorem CanonicalMem.congr (h : CanonicalMem s) (hl : t.large = s.large) (hs : t.small = s.small) : CanonicalMem t :=
  space_forall.mpr ⟨by rw [State.arena_large, hl]; exact h .large, by rw [State.arena_small, hs]; exact h .small⟩

/-- A change of one arena's bytes by an operation that keeps the canonical form. -/
theorem CanonicalMem.mapMem (h : CanonicalMem s) (sp : Space) {f : Memory → Memory}
    (hf : ∀ m : Memory, m.wf = true → (f m).wf = true) : CanonicalMem (s.mapMem sp f) := by
  intro sq
  rw [State.mapMem_mem]
  split
  · exact hf _ (h sp)
  · exact h sq

theorem CanonicalMem.withRing (h : CanonicalMem s) (k : Fin 2) (r : Ring) : CanonicalMem (s.withRing k r) :=
  h.congr rfl rfl

theorem CanonicalMem.written (h : CanonicalMem s) {k : Fin 2} (hw : Written s t k) : CanonicalMem t := by
  obtain ⟨f, r, rfl, hf, -⟩ := hw.effect
  exact (h.mapMem _ hf).withRing k r

theorem declareArena_canonicalMem (h : CanonicalMem s) (which : Space) (size : BitVec 24) :
    CanonicalMem (declareArena s which size) := by
  intro sp
  rw [declareArena_arena]
  split
  · exact Memory.unspecified_wf
  · exact h sp

theorem rbBind_canonicalMem (h : CanonicalMem s) (k : Fin 2) (space : Space) (enc : SampleFormat) (base size : BitVec 24) :
    CanonicalMem (rbBind s k space enc base size) := by
  rw [rbBind_eq]
  exact (h.mapMem space fun m hm => Memory.zeroFill_wf hm _ _).withRing k _

theorem fullReset_canonicalMem (h : CanonicalMem s) (plan : Partition) : CanonicalMem (background (fullReset s plan)) := by
  obtain ⟨hl, hs, -⟩ := background_fullReset_memory s plan
  rw [carve_eq] at hl hs
  refine space_forall.mpr ⟨?_, ?_⟩
  · rw [State.arena_large, hl]
    exact carvedLarge_wf plan (h .large)
  · rw [State.arena_small, hs]
    exact carvedSmall_wf plan (h .small)

theorem processBlock_canonicalMem (h : CanonicalMem s) : CanonicalMem (processBlock s) := by
  have hin : CanonicalMem (processInput s).1 := by
    rw [processInput_eq]
    exact h.congr rfl rfl
  obtain ⟨r, h0, h1⟩ := recordStage_written (processInput s).1 (processInput s).2
  refine ((hin.written h0).written h1).congr ?_ ?_ <;> rw [processBlock_eq]

/-- Every effect keeps the canonical form, in every state. -/
theorem Completes.canonicalMem (hc : Completes s i u) (h : CanonicalMem s) : CanonicalMem u := by
  cases hc with
  | arena which size => exact declareArena_canonicalMem h which _
  | prepareFull plan => exact fullReset_canonicalMem h plan
  | prepareLight =>
    obtain ⟨w, k, e⟩ := background_lightReset_frame s
    exact h.congr (by rw [e]) (by rw [e])
  | prepareNone =>
    obtain ⟨w, k, e⟩ := background_frame s
    exact h.congr (by rw [e]) (by rw [e])
  | processBlock => exact processBlock_canonicalMem h
  | rbinit inst space enc base size => exact rbBind_canonicalMem h inst space enc base size
  | rbwf inst allow count stride src => exact h.written (rbWrite_written s inst _ allow)
  | _ => exact h.congr rfl rfl

/-- Settles O9: an invariant of a step that every effect keeps and a reset establishes. -/
theorem stepKeepsMemoriesCanonical : Obligations.StepKeepsMemoriesCanonical := by
  unfold Obligations.StepKeepsMemoriesCanonical
  intro s t hl hs hst
  have ht : CanonicalMem t :=
    step_keeps (fun _ _ _ _ _ _ _ _ _ _ h => h.congr rfl rfl) (fun _ => space_forall.mpr ⟨rfl, rfl⟩)
      (fun _ _ _ h hc => hc.canonicalMem h) (space_forall.mpr ⟨hl, hs⟩) hst
  exact space_forall.mp ht

end

end Sys2Proof.Machine
end

section
/-! PROOFS. Stored samples (20_memory.md R45, R46): a load after a store gives the stored value as its encoding holds it, with the error
bound of the mu-law code (40_tables.md R76 to R78). -/

namespace Sys2Proof.Machine

/-! ## The mu-law code (40_tables.md R76, R77) -/

/-- The three fields of a mu-law code stand where R76 reads them: sign in bit 7, segment in bits 6:4, mantissa in bits 3:0. -/
theorem mulaw_fields {sign seg man : Nat} (hsign : sign < 2) (hseg : seg < 8) (hman : man < 16) :
    let c := BitVec.ofNat 8 (sign <<< 7 ||| seg <<< 4 ||| man)
    c.getLsbD 7 = decide (sign = 1) ∧ (c.extractLsb' 4 3).toNat = seg ∧ (c.extractLsb' 0 4).toNat = man := by
  have hlow : seg <<< 4 ||| man = seg * 16 + man := by
    rw [← Nat.shiftLeft_add_eq_or_of_lt hman, Nat.shiftLeft_eq]
  have hcode : sign <<< 7 ||| seg <<< 4 ||| man = sign * 128 + (seg * 16 + man) := by
    rw [Nat.or_assoc, hlow, ← Nat.shiftLeft_add_eq_or_of_lt (show seg * 16 + man < 2 ^ 7 by omega), Nat.shiftLeft_eq]
  rw [hcode]
  refine ⟨?_, ?_, ?_⟩
  · rw [BitVec.getLsbD, BitVec.toNat_ofNat, Nat.testBit_eq_decide_div_mod_eq]
    congr 1
    simp only [eq_iff_iff]
    omega
  · simp only [BitVec.extractLsb'_toNat, BitVec.toNat_ofNat, Nat.shiftRight_eq_div_pow]
    omega
  · simp only [BitVec.extractLsb'_toNat, BitVec.toNat_ofNat, Nat.shiftRight_eq_div_pow]
    omega

/-- The magnitude `MULAW_ENC` encodes, clipped and biased (40_tables.md R77). -/
def mulawMagnitude (v : Int) : Nat := min v.natAbs 32635 + 132

/-- The segment `MULAW_ENC` gives a value (40_tables.md R77). -/
def mulawSegment (v : Int) : Nat := Nat.log2 (mulawMagnitude v) + 1 - 8

/-- The segment is the one whose range of magnitudes holds the value. -/
theorem mulawSegment_spec (v : Int) :
    mulawSegment v < 8 ∧ 128 * 2 ^ mulawSegment v ≤ mulawMagnitude v ∧ mulawMagnitude v < 256 * 2 ^ mulawSegment v := by
  have hlo : 132 ≤ mulawMagnitude v := Nat.le_add_left ..
  have hhi : mulawMagnitude v ≤ 32767 := Nat.add_le_add_right (Nat.min_le_right ..) 132
  have h7 : 7 ≤ Nat.log2 (mulawMagnitude v) := (Nat.le_log2 (by omega)).mpr (by omega)
  have h15 : Nat.log2 (mulawMagnitude v) < 15 := (Nat.log2_lt (by omega)).mpr (by omega)
  have hself := Nat.log2_self_le (n := mulawMagnitude v) (by omega)
  have hnext := Nat.lt_log2_self (n := mulawMagnitude v)
  obtain ⟨seg, hseg⟩ : ∃ seg, Nat.log2 (mulawMagnitude v) = seg + 7 := ⟨_, (Nat.sub_add_cancel h7).symm⟩
  have hs : mulawSegment v = seg := by rw [mulawSegment, hseg]; omega
  rw [hseg] at hself hnext h15
  rw [pow_add] at hself
  rw [add_assoc, pow_add] at hnext
  rw [hs]
  omega

/-- The number of the quantisation step of a value: the leading five bits of its magnitude (40_tables.md R77). -/
def mulawStep (v : Int) : Nat := mulawMagnitude v >>> (mulawSegment v + 3)

theorem mulawStep_eq (v : Int) : mulawStep v = mulawMagnitude v / (8 * 2 ^ mulawSegment v) := by
  rw [mulawStep, Nat.shiftRight_eq_div_pow, pow_add, mul_comm]
  rfl

theorem mulawStep_range (v : Int) : 16 ≤ mulawStep v ∧ mulawStep v < 32 := by
  obtain ⟨-, hlo, hhi⟩ := mulawSegment_spec v
  have hpos : 0 < 8 * 2 ^ mulawSegment v := by positivity
  rw [mulawStep_eq, Nat.le_div_iff_mul_le hpos, Nat.div_lt_iff_lt_mul hpos]
  omega

/-- The middle of the quantisation step of a value: the biased magnitude its code stands for (40_tables.md R76). -/
def mulawStepMiddle (v : Int) : Nat := (8 * mulawStep v + 4) * 2 ^ mulawSegment v

/-- A value decodes to the middle of its quantisation step, less the bias, with its own sign. -/
theorem mulawDecode_mulawEncode (v : Int) :
    mulawDecode (mulawEncode v) = if v < 0 then -((mulawStepMiddle v : Int) - 132) else (mulawStepMiddle v : Int) - 132 := by
  obtain ⟨hseg, -⟩ := mulawSegment_spec v
  obtain ⟨hlo, hhi⟩ := mulawStep_range v
  have hman : mulawStep v &&& 15 = mulawStep v - 16 := by
    rw [show (15 : Nat) = 2 ^ 4 - 1 from rfl, Nat.and_two_pow_sub_one_eq_mod]
    omega
  have hsign : (if v < 0 then 1 else 0) < 2 := by split <;> omega
  have hcode : mulawEncode v =
      BitVec.ofNat 8 ((if v < 0 then 1 else 0) <<< 7 ||| mulawSegment v <<< 4 ||| (mulawStep v - 16)) := by
    rw [← hman]
    rfl
  obtain ⟨e1, e2, e3⟩ := mulaw_fields hsign hseg (show mulawStep v - 16 < 16 by omega)
  have hmid : ((mulawStep v - 16) <<< 3 + 132) <<< mulawSegment v = mulawStepMiddle v := by
    rw [mulawStepMiddle, Nat.shiftLeft_eq, Nat.shiftLeft_eq]
    congr 1
    omega
  simp only [mulawDecode, hcode, e1, e2, e3, hmid]
  split <;> rfl

/-- The middle of the step is within half a step of the magnitude. -/
theorem mulawStepMiddle_near (v : Int) :
    mulawStepMiddle v ≤ mulawMagnitude v + 4 * 2 ^ mulawSegment v ∧
      mulawMagnitude v < mulawStepMiddle v + 4 * 2 ^ mulawSegment v := by
  have hdiv := Nat.div_add_mod (mulawMagnitude v) (8 * 2 ^ mulawSegment v)
  have hmod := Nat.mod_lt (mulawMagnitude v) (show 0 < 8 * 2 ^ mulawSegment v by positivity)
  rw [← mulawStep_eq] at hdiv
  have hmid : mulawStepMiddle v = 8 * 2 ^ mulawSegment v * mulawStep v + 4 * 2 ^ mulawSegment v := by
    rw [mulawStepMiddle]
    ring
  omega

/-- Every magnitude at or above the clip has the last code (40_tables.md R77). -/
theorem mulawStepMiddle_clipped {v : Int} (h : 32635 ≤ v.natAbs) : mulawStepMiddle v = 32256 := by
  have hmag : mulawMagnitude v = 32767 := by rw [mulawMagnitude, Nat.min_eq_right h]
  have hseg : mulawSegment v = 7 := by rw [mulawSegment, hmag]; decide
  rw [mulawStepMiddle, mulawStep, hmag, hseg]
  rfl

/-- The error of the mu-law code over 16-bit samples: at most half a step, 512, below the clip, and up to 644 above it, at -32768
(40_tables.md R78). -/
theorem mulaw_error_le {v : Int} (h1 : -32768 ≤ v) (h2 : v ≤ 32767) : (mulawDecode (mulawEncode v) - v).natAbs ≤ 644 := by
  rw [mulawDecode_mulawEncode]
  by_cases hclip : 32635 ≤ v.natAbs
  · rw [mulawStepMiddle_clipped hclip]
    split <;> omega
  · have hmag : mulawMagnitude v = v.natAbs + 132 := by rw [mulawMagnitude, Nat.min_eq_left (by omega)]
    have hstep : 2 ^ mulawSegment v ≤ 2 ^ 7 := Nat.pow_le_pow_right (by omega) (Nat.le_of_lt_succ (mulawSegment_spec v).1)
    obtain ⟨hup, hdown⟩ := mulawStepMiddle_near v
    split <;> omega

/-! ## A load after a store -/

/-- The two bytes of a sample, little-endian, make the sample (20_memory.md R44). -/
theorem append_extractLsb' (v : Half) : v.extractLsb' 8 8 ++ v.extractLsb' 0 8 = v := by
  rw [BitVec.extractLsb'_append_extractLsb'_eq_extractLsb' (by omega)]
  simp

section

variable {s : State} {i : Fin 2}

@[simp] theorem rbStore_rings (s : State) (i : Fin 2) (a : Nat) (v : Int) : (rbStore s i a v).rings = s.rings := by
  rw [rbStore_eq, State.mapMem_rings]

/-- The bytes a store leaves. -/
theorem rbStore_byte? (s : State) (i : Fin 2) (a : Nat) (v : Int) (sp : Space) (x : Nat) :
    (rbStore s i a v).byte? sp x =
      if sp = s.rings[i].space then (storeIn s.rings[i] a v (s.arena s.rings[i].space).mem).get? x else s.byte? sp x := by
  rw [rbStore_eq, State.mapMem_byte?]

/-- A store leaves every byte outside its sample. -/
theorem rbStore_byte?_other (hw : (s.arena s.rings[i].space).mem.wf = true) {a : Nat} {sp : Space} {x : Nat}
    (hx : ¬(sp = s.rings[i].space ∧ inSample s.rings[i] a x)) (v : Int) : (rbStore s i a v).byte? sp x = s.byte? sp x := by
  rw [rbStore_byte?]
  split
  · rename_i hsp
    rw [storeIn_get?_other hw (fun hin => hx ⟨hsp, hin⟩), hsp]
    rfl
  · rfl

/-- A store leaves every other sample. -/
theorem rbLoad_rbStore_other (hw : (s.arena s.rings[i].space).mem.wf = true) {a b : Nat} (hab : b ≠ a) (v : Int) :
    rbLoad (rbStore s i a v) i b = rbLoad s i b :=
  rbLoad_congr (by rw [rbStore_rings]) fun _ hx => rbStore_byte?_other hw (fun hin => not_inSample_of_ne hab hx hin.2) v

/-- A 16-bit sample loads as it was stored (20_memory.md R45, R46). -/
theorem rbLoad_rbStore_linear (hw : (s.arena s.rings[i].space).mem.wf = true) (he : s.rings[i].enc = .linear16) (a : Nat) {v : Int}
    (h1 : -32768 ≤ v) (h2 : v ≤ 32767) : rbLoad (rbStore s i a v) i a = v := by
  have hlow : (rbStore s i a v).byte? s.rings[i].space (sampleAddress s.rings[i] a) = some ((toHalf v).extractLsb' 0 8) := by
    rw [rbStore_byte?, if_pos rfl]
    simp only [storeIn, he]
    rw [Memory.get?_put_other (Memory.put_wf hw _ _) (by omega), Memory.get?_put_self hw]
  have hhigh : (rbStore s i a v).byte? s.rings[i].space (sampleAddress s.rings[i] a + 1) =
      some ((toHalf v).extractLsb' 8 8) := by
    rw [rbStore_byte?, if_pos rfl]
    simp only [storeIn, he]
    rw [Memory.get?_put_self (Memory.put_wf hw _ _)]
  simp only [rbLoad, rbStore_rings, he, State.loadHalf, State.loadByte, hlow, hhigh, Option.getD_some, append_extractLsb',
    toInt_toHalf h1 h2]

/-- A mu-law sample loads as its code decodes (20_memory.md R45, R46). -/
theorem rbLoad_rbStore_mulaw (hw : (s.arena s.rings[i].space).mem.wf = true) (he : s.rings[i].enc = .mulaw8) (a : Nat) (v : Int) :
    rbLoad (rbStore s i a v) i a = mulawDecode (mulawEncode v) := by
  have hcode : (rbStore s i a v).byte? s.rings[i].space (sampleAddress s.rings[i] a) = some (mulawEncode v) := by
    rw [rbStore_byte?, if_pos rfl]
    simp only [storeIn, he]
    rw [Memory.get?_put_self hw]
  simp only [rbLoad, rbStore_rings, he, State.loadByte, hcode, Option.getD_some]

/-- A store changes no register. -/
theorem rbStore_frame (s : State) (i : Fin 2) (a : Nat) (v : Int) :
    rbStore s i a v = { s with large := (rbStore s i a v).large, small := (rbStore s i a v).small } := by
  rw [rbStore_eq]
  cases s.rings[i].space <;> rfl

/-- Settles O39: the load of the sample stored, by the encoding, and the frame of a store. -/
theorem loadAfterStore : Obligations.LoadAfterStore := by
  unfold Obligations.LoadAfterStore
  intro s i a v hl hs h1 h2
  have hw : (s.arena s.rings[i].space).mem.wf = true :=
    space_forall (p := fun sp => (s.arena sp).mem.wf = true).mpr ⟨hl, hs⟩ _
  refine ⟨fun he => rbLoad_rbStore_linear hw he a h1 h2, fun he => ?_, fun b hab => rbLoad_rbStore_other hw hab v,
    fun sp => by rw [rbStore_eq, State.mapMem_declared, State.mapMem_size]; exact ⟨rfl, rfl⟩,
    fun sp x hx => rbStore_byte?_other hw hx v, rbStore_frame s i a v⟩
  rw [rbLoad_rbStore_mulaw hw he]
  exact ⟨rfl, mulaw_error_le h1 h2⟩

end

end Sys2Proof.Machine
end

section
/-! PROOFS. Which command changes arena bytes (20_memory.md R41, R43, R58), and what a full re-partition promises of the regions it binds
(20_memory.md R51). -/

namespace Sys2Proof.Machine

section

variable {s t u : State} {i : Instr}

/-! ## Writers of arena bytes -/

theorem byte?_congr {sp : Space} (h : t.arena sp = s.arena sp) (x : Nat) : t.byte? sp x = s.byte? sp x := by
  rw [State.byte?, State.byte?, h]

/-- Declaring an arena leaves the bytes of the other. -/
theorem declareArena_byte?_other {which sp : Space} (h : sp ≠ which) (size : BitVec 24) (x : Nat) :
    (declareArena s which size).byte? sp x = s.byte? sp x :=
  byte?_congr (by rw [declareArena_arena, if_neg h]) x

/-- A binding leaves the bytes of the other arena. -/
theorem rbBind_byte?_other {space sp : Space} (h : sp ≠ space) (k : Fin 2) (enc : SampleFormat) (base size : BitVec 24) (x : Nat) :
    (rbBind s k space enc base size).byte? sp x = s.byte? sp x := by
  rw [rbBind_eq, State.withRing_byte?, State.mapMem_byte?, if_neg h]

/-- A write leaves the bytes of the arena its ring buffer is not in. -/
theorem Written.byte?_other {k : Fin 2} (h : Written s t k) {sp : Space} (hsp : sp ≠ s.rings[k].space) (x : Nat) :
    t.byte? sp x = s.byte? sp x := by
  obtain ⟨f, r, rfl, -⟩ := h.effect
  rw [State.withRing_byte?, State.mapMem_byte?, if_neg hsp]

/-- A write with the gate closed stores nothing (41_ring_buffer.md R94). -/
theorem rbWrite_closed_byte? (s : State) (k : Fin 2) (xs : List Half) (sp : Space) (x : Nat) :
    (rbWrite s k xs false).byte? sp x = s.byte? sp x := by
  cases xs with
  | nil => rfl
  | cons v xs => rw [rbWrite_frozen s k (v :: xs) (List.cons_ne_nil v xs), State.withRing_byte?]

/-- The commands that can change a byte of an arena (20_memory.md R43, R58). -/
def WritesArena (s : State) (sp : Space) (i : Instr) : Prop :=
  (∃ size, i = .arena sp size) ∨
  (∃ inst enc base size, i = .rbinit inst sp enc base size) ∨
  (∃ inst count stride src, i = .rbwf inst true count stride src ∧ s.rings[inst].space = sp) ∨
  i = .prepare ∨
  ∃ size, i = .process size

/-- The effect of every other command leaves the bytes of the arena. -/
theorem Completes.byte?_eq (hc : Completes s i u) {sp : Space} (hi : ¬ WritesArena s sp i) (x : Nat) :
    u.byte? sp x = s.byte? sp x := by
  simp only [WritesArena, not_or] at hi
  obtain ⟨harena, hrbinit, hrbwf, hprepare, hprocess⟩ := hi
  cases hc with
  | arena which size =>
    refine declareArena_byte?_other ?_ _ x
    rintro rfl
    exact harena ⟨size, rfl⟩
  | rbinit inst space enc base size =>
    refine rbBind_byte?_other ?_ inst enc base size x
    rintro rfl
    exact hrbinit ⟨inst, enc, base, size, rfl⟩
  | rbwf inst allow count stride src =>
    cases allow with
    | false => exact rbWrite_closed_byte? s inst _ sp x
    | true =>
      refine (rbWrite_written s inst _ true).byte?_other ?_ x
      rintro rfl
      exact hrbwf ⟨inst, count, stride, src, rfl, rfl⟩
  | prepareFull | prepareLight | prepareNone => exact absurd rfl hprepare
  | processBypass size | processSilent size | processBlock size => exact absurd ⟨size, rfl⟩ hprocess
  | svfrst | svfset | svfstep => exact State.withSvf_byte? ..
  | _ => exact byte?_congr (by cases sp <;> rfl) x

/-- Settles O20: a discard and a fault change no byte, and neither does the effect of a command that is not named. -/
theorem arenaBytesChangeOnlyBy : Obligations.ArenaBytesChangeOnlyBy := by
  unfold Obligations.ArenaBytesChangeOnlyBy
  intro i s t sp x h hne
  show WritesArena s sp i
  by_contra hi
  refine hne ?_
  cases exec_ends h with
  | discarded => exact byte?_congr (by cases sp <;> rfl) x
  | faulted => exact State.faulted_byte? ..
  | completed _ _ hc => exact (byte?_congr (by cases sp <;> rfl) x).trans (hc.byte?_eq hi x)

/-! ## The regions of a partition (20_memory.md R50, R51) -/

/-- A mode change is benign where no mode of the two is Spectral and the old one is a real mode (48_sequencer.md R151). -/
theorem benignChange_eq_true (prev : Option Mode) (next : Mode) :
    benignChange prev next = true ↔ prev ≠ none ∧ prev ≠ some .spectral ∧ next ≠ .spectral := by
  cases prev <;> simp [benignChange]

/-- `PREPARE` decides on a full re-partition where the rule asks for one (48_sequencer.md R151). -/
theorem prepareKind_of_fullWanted (h : fullWanted s) : prepareKind s = .full := by
  refine if_pos ?_
  rw [Bool.or_eq_true, Bool.and_eq_true, decide_eq_true_eq, Bool.not_eq_true', Bool.eq_false_iff, ne_eq (benignChange ..),
    benignChange_eq_true]
  unfold fullWanted at h
  tauto

/-- What a `PREPARE` that wants a full re-partition and completes does: a partition fits and is carved up. -/
theorem Completes.fullReset_of_fullWanted (hc : Completes s .prepare u) (h : fullWanted s) :
    ∃ plan, partition? s = some plan ∧ u = background (fullReset s plan) := by
  cases hc with
  | prepareFull plan _ fits => exact ⟨plan, fits, rfl⟩
  | prepareLight _ kind | prepareNone _ kind =>
    rw [prepareKind_of_fullWanted h] at kind
    cases kind

/-- The ring buffers, the workspace and the arena sizes of `t` are those a partition of `s` leaves. -/
structure Partitioned (s t : State) (plan : Partition) : Prop where
  rings : t.rings = carvedRings s.format plan
  wsSpace : t.wsSpace = plan.wsSpace
  wsBase : t.wsBase = plan.wsBase
  wsSize : t.wsSize = plan.wsSize
  large : t.large.size = s.large.size
  small : t.small.size = s.small.size

theorem background_fullReset_partitioned (s : State) (plan : Partition) :
    Partitioned s (background (fullReset s plan)) plan := by
  obtain ⟨-, -, hrings⟩ := background_fullReset_memory s plan
  obtain ⟨ml, ms, rs, w, k, e⟩ := background_fullReset_frame s plan
  refine ⟨hrings, ?_, ?_, ?_, ?_, ?_⟩ <;> rw [e]

theorem Partitioned.size_eq {plan : Partition} (h : Partitioned s t plan) (sp : Space) : (t.arena sp).size = (s.arena sp).size := by
  cases sp
  exacts [h.large, h.small]

/-- The two ring buffers of a carve-up: `RB[0]` holds the first `ringSize` bytes of `LARGE`; `RB[1]`, where bound, those of `SMALL`. -/
theorem inRegion_carvedRings {format : SampleFormat} {plan : Partition} {sp : Space} {x : Nat} :
    (inRegion (carvedRings format plan)[0] sp x ↔ sp = .large ∧ x < plan.ringSize.toNat) ∧
      (inRegion (carvedRings format plan)[1] sp x ↔ plan.stereo = true ∧ sp = .small ∧ x < plan.ringSize.toNat) := by
  constructor
  · simp [carvedRings, inRegion, boundRing, @eq_comm _ Space.large]
  · cases hst : plan.stereo <;> simp [carvedRings, inRegion, boundRing, Ring.unbound, hst, @eq_comm _ Space.small]

/-- After a partition that fits, each region ends inside its arena. -/
theorem Partitioned.rings_inside {plan : Partition} (h : Partitioned s t plan) (hp : PlanFits s plan) (k : Fin 2)
    (hb : t.rings[k].bound = true) :
    t.rings[k].base.toNat + t.rings[k].size.toNat ≤ (t.arena t.rings[k].space).size.toNat := by
  rw [h.size_eq]
  rw [h.rings] at hb ⊢
  revert k
  refine Fin.forall_fin_two.mpr ⟨fun _ => ?_, fun hb => ?_⟩
  · simpa [carvedRings, boundRing] using hp.left
  · cases hst : plan.stereo with
    | false => simp [carvedRings, hst, Ring.unbound] at hb
    | true => simpa [carvedRings, boundRing, hst] using hp.right hst

/-- After a partition that fits, the workspace ends inside its arena. -/
theorem Partitioned.workspace_inside {plan : Partition} (h : Partitioned s t plan) (hp : PlanFits s plan) :
    t.wsBase.toNat + t.wsSize.toNat ≤ (t.arena t.wsSpace).size.toNat := by
  rw [h.size_eq, h.wsSpace, h.wsBase, h.wsSize]
  exact hp.inside

/-- After a partition, no byte lies in both regions: they lie in different arenas. -/
theorem Partitioned.rings_disjoint {plan : Partition} (h : Partitioned s t plan) (sp : Space) (x : Nat) :
    ¬(inRegion t.rings[0] sp x ∧ inRegion t.rings[1] sp x) := by
  obtain ⟨hleft, hright⟩ := inRegion_carvedRings (format := s.format) (plan := plan) (sp := sp) (x := x)
  rw [h.rings, hleft, hright]
  rintro ⟨⟨rfl, -⟩, -, hsp, -⟩
  cases hsp

/-- After a partition that fits, no byte of the workspace lies in a region: where the two share an arena, the workspace starts at or
above the region's end. -/
theorem Partitioned.workspace_disjoint {plan : Partition} (h : Partitioned s t plan) (hp : PlanFits s plan) (sp : Space) (x : Nat)
    (k : Fin 2) : ¬(inRegion t.rings[k] sp x ∧ sp = t.wsSpace ∧ t.wsBase.toNat ≤ x ∧ x < t.wsBase.toNat + t.wsSize.toNat) := by
  obtain ⟨hleft, hright⟩ := inRegion_carvedRings (format := s.format) (plan := plan) (sp := sp) (x := x)
  rw [h.rings, h.wsSpace, h.wsBase]
  revert k
  refine Fin.forall_fin_two.mpr ⟨?_, ?_⟩
  · rintro ⟨h0, hws, hge, -⟩
    obtain ⟨hsp, hlt⟩ := hleft.mp h0
    have := hp.apart (.inl (hws.symm.trans hsp))
    omega
  · rintro ⟨h1, -, hge, -⟩
    obtain ⟨hst, -, hlt⟩ := hright.mp h1
    have := hp.apart (.inr hst)
    omega

/-- Settles O49: the partition that was carved up fits, and a partition that fits keeps its regions and its workspace apart. -/
theorem partitionRegionsAreDisjoint : Obligations.PartitionRegionsAreDisjoint := by
  unfold Obligations.PartitionRegionsAreDisjoint
  intro s t hf hw h ht
  cases exec_ends h with
  | discarded hs => exact absurd (hf.symm.trans hs) Bool.false_ne_true
  | faulted => cases ht
  | @completed _ r u hc =>
    obtain ⟨plan, fits, hu⟩ := hc.fullReset_of_fullWanted hw
    have hp := planFits_of_partition? fits
    obtain ⟨rings, wsSpace, wsBase, wsSize, large, small⟩ := hu ▸ background_fullReset_partitioned s plan
    have ht : Partitioned s { u with resp := r, cmdcnt := u.cmdcnt + 1 } plan :=
      ⟨rings, wsSpace, wsBase, wsSize, large, small⟩
    exact ⟨ht.rings_inside hp, ht.workspace_inside hp, fun sp x => ⟨ht.rings_disjoint sp x, ht.workspace_disjoint hp sp x⟩⟩

end

end Sys2Proof.Machine
end

section
/-! PROOFS. Decoding and encoding are inverse to each other (30_encoding.md R62 to R65): a word is its fields, and an `A` field
whose unused bits are 0 is its flags, so a word that decodes is the word of its command. -/

namespace Sys2Proof

/-! ## A word is its fields -/

/-- The word with given fields (30_encoding.md R62). -/
theorem packWord_of_fields {w : Cmd} {opc a : BitVec 8} {b : BitVec 16} {c : BitVec 32} (ho : opcField w = opc)
    (ha : aField w = a) (hb : bField w = b) (hc : cField w = c) : packWord opc a b c = w := by
  subst ho ha hb hc
  apply BitVec.eq_of_toNat_eq
  simp only [packWord_toNat, opcField, aField, bField, cField, BitVec.extractLsb'_toNat, Nat.shiftRight_eq_div_pow]
  omega

/-- The word with given fields of format `D` (30_encoding.md R62). -/
theorem packWordD_of_fields {w : Cmd} {opc a : BitVec 8} (ho : opcField w = opc) (ha : aField w = a) :
    packWordD opc a (baseField w) (sizeField w) = w := by
  subst ho ha
  apply BitVec.eq_of_toNat_eq
  simp only [packWordD_toNat, opcField, aField, baseField, sizeField, BitVec.extractLsb'_toNat,
    Nat.shiftRight_eq_div_pow]
  omega

theorem cField_eq_halves (w : Cmd) : cField w = cHiField w ++ cLoField w := by
  apply BitVec.eq_of_toNat_eq
  simp only [append_toNat, cField, cHiField, cLoField, BitVec.extractLsb'_toNat, Nat.shiftRight_eq_div_pow]
  omega

/-! ## An `A` field with its unused bits 0 is its flags -/

/-- A bit of a vector as a number. -/
theorem bit_getLsbD_toNat {n : Nat} (a : BitVec n) (k : Nat) : (bit (a.getLsbD k)).toNat = a.toNat / 2 ^ k % 2 := by
  rw [BitVec.getLsbD, Nat.testBit_eq_decide_div_mod_eq]
  rcases Nat.mod_two_eq_zero_or_one (a.toNat / 2 ^ k) with h | h <;> simp [bit, h]

theorem aFlags_toNat (f2 f1 f0 : BitVec 1) : (aFlags f2 f1 f0).toNat = f2.toNat * 4 + f1.toNat * 2 + f0.toNat := by
  simp only [aFlags, append_toNat, BitVec.toNat_ofNat]
  omega

theorem aField_eq_three_flags {w : Cmd} (h : (aField w).toNat < 8) :
    aField w = aFlags (bit (aFlag2 w)) (bit (aFlag1 w)) (bit (aFlag0 w)) := by
  apply BitVec.eq_of_toNat_eq
  simp only [aFlags_toNat, aFlag0_eq, aFlag1_eq, aFlag2_eq, bit_getLsbD_toNat]
  omega

theorem aField_eq_two_flags {w : Cmd} (h : (aField w).toNat < 4) :
    aField w = aFlags 0#1 (bit (aFlag1 w)) (bit (aFlag0 w)) := by
  apply BitVec.eq_of_toNat_eq
  simp only [aFlags_toNat, aFlag0_eq, aFlag1_eq, bit_getLsbD_toNat, BitVec.toNat_ofNat]
  omega

theorem aField_eq_one_flag {w : Cmd} (h : (aField w).toNat < 2) : aField w = aFlags 0#1 0#1 (bit (aFlag0 w)) := by
  apply BitVec.eq_of_toNat_eq
  simp only [aFlags_toNat, aFlag0_eq, bit_getLsbD_toNat, BitVec.toNat_ofNat]
  omega

theorem aField_eq_filterBits {w : Cmd} (h : (aField w).toNat < 8) : aField w = filterBits (filterOf w) := by
  apply BitVec.eq_of_toNat_eq
  simp only [filterBits, append_toNat, filterOf_eq, BitVec.toNat_ofFin, BitVec.val_toFin, BitVec.extractLsb'_toNat,
    BitVec.toNat_ofNat]
  omega

@[simp] theorem code_spaceOf (b : Bool) : (spaceOf b).code = bit b := by cases b <;> rfl

@[simp] theorem code_formatOf (b : Bool) : (formatOf b).code = bit b := by cases b <;> rfl

@[simp] theorem ringBit_ringOf (b : Bool) : ringBit (ringOf b) = bit b := by cases b <;> rfl

/-! ## The round trips -/

/-- A word answers with the command of its opcode exactly when its unused bits are 0 (30_encoding.md R63). -/
@[simp] theorem ifUnusedZero_eq_ok {ok : Bool} {w : Cmd} {i j : Instr} :
    ifUnusedZero ok w i = .ok j ↔ ok = true ∧ i = j := by
  cases ok <;> simp [ifUnusedZero]

/-- The decoder's test of an `A` field with one flag, in the form `simp` gives it. -/
@[simp] theorem aFlags_le_one (f0 : BitVec 1) : (aFlags 0#1 0#1 f0).toNat ≤ 1 := Nat.le_of_lt_succ (aFlags_lt_one f0)

/-- The decoder's test of an `A` field with two flags, in the form `simp` gives it. -/
@[simp] theorem aFlags_lt_four (f1 f0 : BitVec 1) : (aFlags 0#1 f1 f0).toNat < 4 := aFlags_lt_two f1 f0

/-- The word of every command decodes to it: each operand is read back from the field it was put in, and the bits the format
does not use are 0. The commands fall together by what their `A` field holds and whether their operands split `C`. -/
theorem decode_encode (i : Instr) : decode (encode i) = .ok i := by
  cases i with
  | arena | setsil | setbyp | peek | rbrd => simp [decode, encode, aFlag0_eq, -BitVec.getLsbD_eq_getElem]
  | rbwf => simp [decode, encode, aFlag0_eq, aFlag1_eq, cHiField_eq, cLoField_eq, -BitVec.getLsbD_eq_getElem]
  | rbinit => simp [decode, encode, aFlag0_eq, aFlag1_eq, aFlag2_eq, aFlags_lt, -BitVec.getLsbD_eq_getElem]
  | svfrst | svfset | svfstep => simp [decode, encode, filterOf_eq, filterBits_lt, -BitVec.toFin_extractLsb']
  | framew | xfade => simp [decode, encode, cHiField_eq, cLoField_eq]
  | nop | csrr | tblinit | init | pset | setmode | setqual | rstbuf | prepare | process | framer | lim =>
    simp [decode, encode]

/-- A word that decodes has the opcode of a command, unused bits 0 and the command's operands in its fields, so it is the
command's word. The cases are the rows of the opcode map in their order (30_encoding.md R65). -/
theorem encode_of_decode {w : Cmd} {i : Instr} (h : decode w = .ok i) : encode i = w := by
  unfold decode at h
  split at h <;>
    simp only [ifUnusedZero_eq_ok, Bool.and_eq_true, decide_eq_true_eq, and_assoc, reduceCtorEq] at h
  · obtain ⟨ha, hb, hc, rfl⟩ := h
    exact packWord_of_fields ‹_› ha hb hc
  · obtain ⟨ha, hc, rfl⟩ := h
    exact packWord_of_fields ‹_› ha rfl hc
  · obtain ⟨ha, hb, rfl⟩ := h
    rw [encode, code_spaceOf]
    exact packWord_of_fields ‹_› (aField_eq_one_flag ha) hb rfl
  · obtain ⟨ha, hb, rfl⟩ := h
    exact packWord_of_fields ‹_› ha hb rfl
  · obtain ⟨ha, hb, rfl⟩ := h
    exact packWord_of_fields ‹_› ha hb rfl
  · obtain ⟨hc, rfl⟩ := h
    exact packWord_of_fields ‹_› rfl rfl hc
  · obtain ⟨hb, hc, rfl⟩ := h
    exact packWord_of_fields ‹_› rfl hb hc
  · obtain ⟨hb, hc, rfl⟩ := h
    exact packWord_of_fields ‹_› rfl hb hc
  · obtain ⟨ha, hb, hc, rfl⟩ := h
    exact packWord_of_fields ‹_› (aField_eq_one_flag ha) hb hc
  · obtain ⟨ha, hb, hc, rfl⟩ := h
    exact packWord_of_fields ‹_› (aField_eq_one_flag ha) hb hc
  · obtain ⟨ha, hb, hc, rfl⟩ := h
    exact packWord_of_fields ‹_› ha hb hc
  · obtain ⟨ha, hb, hc, rfl⟩ := h
    exact packWord_of_fields ‹_› ha hb hc
  · obtain ⟨ha, hc, rfl⟩ := h
    exact packWord_of_fields ‹_› ha rfl hc
  · obtain ⟨ha, rfl⟩ := h
    exact packWord_of_fields ‹_› ha rfl (cField_eq_halves w)
  · obtain ⟨ha, hc, rfl⟩ := h
    exact packWord_of_fields ‹_› ha rfl hc
  · obtain ⟨ha, hb, rfl⟩ := h
    rw [encode, code_spaceOf]
    exact packWord_of_fields ‹_› (aField_eq_one_flag ha) hb rfl
  · obtain ⟨ha, rfl⟩ := h
    rw [encode, code_formatOf, code_spaceOf, ringBit_ringOf]
    exact packWordD_of_fields ‹_› (aField_eq_three_flags ha)
  · obtain ⟨ha, rfl⟩ := h
    rw [encode, ringBit_ringOf]
    exact packWord_of_fields ‹_› (aField_eq_two_flags ha) rfl (cField_eq_halves w)
  · obtain ⟨ha, rfl⟩ := h
    rw [encode, ringBit_ringOf]
    exact packWord_of_fields ‹_› (aField_eq_one_flag ha) rfl rfl
  · obtain ⟨ha, hb, hc, rfl⟩ := h
    exact packWord_of_fields ‹_› (aField_eq_filterBits ha) hb hc
  · obtain ⟨ha, rfl⟩ := h
    exact packWord_of_fields ‹_› (aField_eq_filterBits ha) rfl rfl
  · obtain ⟨ha, hb, rfl⟩ := h
    exact packWord_of_fields ‹_› (aField_eq_filterBits ha) hb rfl
  · obtain ⟨ha, hb, rfl⟩ := h
    exact packWord_of_fields ‹_› ha hb rfl
  · obtain ⟨ha, rfl⟩ := h
    exact packWord_of_fields ‹_› ha rfl (cField_eq_halves w)

/-- A word decodes to a command exactly when it is the command's word. -/
theorem decode_eq_ok_iff {w : Cmd} {i : Instr} : decode w = .ok i ↔ encode i = w :=
  ⟨encode_of_decode, fun h => h ▸ decode_encode i⟩

/-- A listed word both ways: by `decode_eq_ok_iff` the encoding gives the decoding. -/
theorem decode_and_encode_of_encode {w : Cmd} {i : Instr} (h : encode i = w) : decode w = .ok i ∧ encode i = w :=
  ⟨decode_eq_ok_iff.mpr h, h⟩

/-- Settles O1, command by command (`decode_encode`). -/
theorem decodeOfEncode : Obligations.DecodeOfEncode := decode_encode

/-- Settles O2, row by row of the opcode map (`encode_of_decode`). -/
theorem encodeOfDecode : Obligations.EncodeOfDecode := fun _ _ => encode_of_decode

/-- Settles O4: the words by evaluating the encoder, the readings by the round trip. -/
theorem workedEncodings : Obligations.WorkedEncodings := by
  unfold Obligations.WorkedEncodings
  refine ⟨?_, ?_, ?_, ?_, ?_, ?_, ?_, ?_, ?_⟩ <;> exact decode_and_encode_of_encode (by decide)

end Sys2Proof
end

section
/-! PROOFS. Which commands respond (30_encoding.md R61). -/

namespace Sys2Proof.Machine

/-- A run that ends with no fault pending has a response exactly when `b` says so. -/
def RespondsAs (b : Bool) (run : Result) : Prop := ∀ t, run = .next t → t.fault = false → t.resp.isSome = b

section

variable {s u : State} {b : Bool} {run run' : Result} {r : Option Word} {c : Cause} {info : Nat} {w : Cmd}

theorem RespondsAs.complete (h : r.isSome = b) : RespondsAs b (complete r u) := by
  rintro t ⟨⟩ -
  exact h

theorem RespondsAs.raise : RespondsAs b (raise c info w s) := by
  rintro t ⟨⟩ ⟨⟩

theorem RespondsAs.ite {p : Prop} [Decidable p] (h : RespondsAs b run) (h' : RespondsAs b run') :
    RespondsAs b (if p then run else run') := by
  split
  · exact h
  · exact h'

/-- What is discarded leaves the fault pending. -/
theorem RespondsAs.unlessFaulted (h : RespondsAs b run) : RespondsAs b (unlessFaulted s run) := by
  intro t ht hf
  rcases unlessFaulted_cases ht with ⟨hs, ht⟩ | ⟨-, ht⟩
  · cases ht
    exact absurd (hs.symm.trans hf) Bool.noConfusion
  · exact h t ht.symm hf

/-- A command whose checks are one condition. -/
theorem RespondsAs.check {p : Prop} [Decidable p] (h : RespondsAs b run) :
    RespondsAs b (if p then Machine.raise c info w s else run) := .ite .raise h

end

theorem execCsrr_respondsAs (addr : BitVec 16) (s : State) : RespondsAs true (execCsrr addr s) := by
  unfold execCsrr
  split
  · split
    · rintro t ⟨⟩ -
      rfl
    · exact .complete rfl
  · exact .unlessFaulted .raise

theorem execPrepare_respondsAs (s : State) : RespondsAs false (execPrepare s) := by
  refine .unlessFaulted (.check ?_)
  split
  · split
    · exact .complete rfl
    · exact .raise
  · exact .complete rfl
  · exact .complete rfl

theorem execSetmode_respondsAs (mode : BitVec 8) (s : State) : RespondsAs false (execSetmode mode s) := by
  refine .unlessFaulted ?_
  split
  · exact .complete rfl
  · exact .raise

theorem execPset_respondsAs (index : BitVec 8) (value : BitVec 16) (s : State) :
    RespondsAs false (execPset index value s) := by
  refine .unlessFaulted ?_
  split
  · exact .complete rfl
  · exact .raise

theorem execPeek_respondsAs (space : Space) (addr : BitVec 32) (s : State) :
    RespondsAs true (execPeek space addr s) := by
  refine .unlessFaulted (.check (.check ?_))
  split
  · exact .complete rfl
  · exact .complete rfl

/-- A command puts a response on `RESP` exactly when it is one of the six (30_encoding.md R61), whatever its operands, if it leaves
no fault pending. -/
theorem exec_respondsAs (i : Instr) (s : State) : RespondsAs (responds i) (exec i s) := by
  cases i with
  | nop | setsil | setbyp | rstbuf => exact .unlessFaulted (.complete rfl)
  | setqual | svfrst | svfset | svfstep | lim => exact .unlessFaulted (.check (.complete rfl))
  | arena | tblinit | init | process | rbinit | rbrd | xfade =>
    exact .unlessFaulted (.check (.check (.complete rfl)))
  | rbwf => exact .unlessFaulted (.check (.check (.check (.complete rfl))))
  | framew | framer => exact .unlessFaulted (.ite (.complete rfl) .raise)
  | pset => exact execPset_respondsAs _ _ s
  | csrr => exact execCsrr_respondsAs _ s
  | setmode => exact execSetmode_respondsAs _ s
  | prepare => exact execPrepare_respondsAs s
  | peek => exact execPeek_respondsAs _ _ s

/-- A command that leaves a fault pending gives no response: it was the one that faulted. -/
theorem resp_eq_none_of_fault {i : Instr} {s t : State} (hf : s.fault = false) (h : exec i s = .next t)
    (ht : t.fault = true) : t.resp = none := by
  cases exec_ends h with
  | discarded hs => exact absurd (hf.symm.trans hs) Bool.noConfusion
  | faulted => rfl
  | completed _ r hc =>
    obtain ⟨hu, -⟩ := hc.bookkeeping_eq
    exact absurd ((hu.trans hf).symm.trans ht) Bool.noConfusion

/-- Settles O25, by the fault register of the next state. -/
theorem sixCommandsRespond : Obligations.SixCommandsRespond := by
  unfold Obligations.SixCommandsRespond
  intro i s t hf h
  cases ht : t.fault with
  | false => simp [exec_respondsAs i s t h ht]
  | true => simp [resp_eq_none_of_fault hf h ht]

end Sys2Proof.Machine
end

section
/-! PROOFS. The mu-law code (40_tables.md R76 to R78): a code is the sign of a value and the quantisation step that holds its
magnitude. What a code decodes to, which values encode to it and the error of the round trip all follow from that. -/

namespace Sys2Proof.Machine

/-! ## The fields of a code -/

/-- A code is known by its three fields. -/
theorem mulaw_code_ext {c d : Byte} (hsign : c.getLsbD 7 = d.getLsbD 7)
    (hseg : (c.extractLsb' 4 3).toNat = (d.extractLsb' 4 3).toNat)
    (hman : (c.extractLsb' 0 4).toNat = (d.extractLsb' 0 4).toNat) : c = d := by
  have hc := c.isLt
  have hd := d.isLt
  rw [BitVec.getLsbD, BitVec.getLsbD, Nat.testBit_eq_decide_div_mod_eq, Nat.testBit_eq_decide_div_mod_eq, decide_eq_decide] at hsign
  simp only [BitVec.extractLsb'_toNat, Nat.shiftRight_eq_div_pow] at hseg hman
  apply BitVec.eq_of_toNat_eq
  omega

/-- The fields `MULAW_ENC` writes (40_tables.md R77). -/
theorem mulawEncode_fields (v : Int) :
    ((mulawEncode v).getLsbD 7 = true ↔ v < 0) ∧ ((mulawEncode v).extractLsb' 4 3).toNat = mulawSegment v ∧
      ((mulawEncode v).extractLsb' 0 4).toNat = mulawStep v - 16 := by
  obtain ⟨hlo, hhi⟩ := mulawStep_range v
  have hman : mulawStep v &&& 15 = mulawStep v % 16 := Nat.and_two_pow_sub_one_eq_mod _ 4
  obtain ⟨hsign, hseg, hlow⟩ := mulaw_fields (sign := if v < 0 then 1 else 0) (man := mulawStep v &&& 15)
    (by split <;> omega) (mulawSegment_spec v).1 (by omega)
  refine ⟨?_, hseg, hlow.trans (by omega)⟩
  rw [show (mulawEncode v).getLsbD 7 = decide _ from hsign, decide_eq_true_iff]
  split <;> omega

/-! ## The quantisation step of a code -/

/-- The size of a code's quantisation step, which doubles from segment to segment (40_tables.md R76). -/
def mulawStepSize (c : Byte) : Nat := 8 * 2 ^ (c.extractLsb' 4 3).toNat

/-- The biased magnitude at which a code's quantisation step begins: the sixteen steps of a segment follow its leading bit. -/
def mulawStepStart (c : Byte) : Nat := (16 + (c.extractLsb' 0 4).toNat) * mulawStepSize c

/-- The middle of a code's quantisation step. -/
def mulawCodeMiddle (c : Byte) : Nat := mulawStepStart c + mulawStepSize c / 2

/-- A code decodes to the middle of its step, less the bias, with its own sign (40_tables.md R76). -/
theorem mulawDecode_eq (c : Byte) :
    mulawDecode c = if c.getLsbD 7 then -((mulawCodeMiddle c : Int) - 132) else (mulawCodeMiddle c : Int) - 132 := by
  have hhalf : mulawStepSize c / 2 = 4 * 2 ^ (c.extractLsb' 4 3).toNat := by
    rw [mulawStepSize]
    omega
  have hmid : ((c.extractLsb' 0 4).toNat <<< 3 + 132) <<< (c.extractLsb' 4 3).toNat = mulawCodeMiddle c := by
    rw [mulawCodeMiddle, hhalf, mulawStepStart, mulawStepSize, Nat.shiftLeft_eq, Nat.shiftLeft_eq]
    ring
  rw [mulawDecode, hmid]

/-- Only the two codes of segment 0 and mantissa 0 have their middle at the bias, so that only they decode to 0. -/
theorem mulawCodeMiddle_le_bias_iff (c : Byte) :
    mulawCodeMiddle c ≤ 132 ↔ (c.extractLsb' 4 3).toNat = 0 ∧ (c.extractLsb' 0 4).toNat = 0 := by
  rw [mulawCodeMiddle, mulawStepStart, mulawStepSize]
  generalize (c.extractLsb' 4 3).toNat = seg
  generalize (c.extractLsb' 0 4).toNat = man
  cases seg with
  | zero => omega
  | succ seg =>
    have hpos : 2 ≤ 2 ^ (seg + 1) := Nat.le_self_pow (Nat.succ_ne_zero seg) 2
    have hstart : 16 * (8 * 2 ^ (seg + 1)) ≤ (16 + man) * (8 * 2 ^ (seg + 1)) :=
      Nat.mul_le_mul_right _ (Nat.le_add_right 16 man)
    omega

/-- The range of the steps: the first begins at 128, the last ends at 32768, and none is shorter than 8. -/
theorem mulawStepStart_bounds (c : Byte) :
    128 ≤ mulawStepStart c ∧ mulawStepStart c + mulawStepSize c ≤ 32768 ∧ 8 ≤ mulawStepSize c := by
  have hpow : 2 ^ (c.extractLsb' 4 3).toNat ≤ 2 ^ 7 :=
    Nat.pow_le_pow_right (by omega) (Nat.le_of_lt_succ (c.extractLsb' 4 3).isLt)
  have hpos : 0 < 2 ^ (c.extractLsb' 4 3).toNat := by positivity
  have hman := (c.extractLsb' 0 4).isLt
  have hsize : 8 ≤ mulawStepSize c ∧ mulawStepSize c ≤ 1024 := by
    rw [mulawStepSize]
    omega
  have hstart : 16 * 8 ≤ mulawStepStart c := Nat.mul_le_mul (Nat.le_add_right ..) hsize.1
  have hend : mulawStepStart c + mulawStepSize c = (17 + (c.extractLsb' 0 4).toNat) * mulawStepSize c := by
    rw [mulawStepStart]
    ring
  have hlast : (17 + (c.extractLsb' 0 4).toNat) * mulawStepSize c ≤ 32 * 1024 := Nat.mul_le_mul (by omega) hsize.2
  omega

/-! ## Which values have a code -/

/-- The segment of a value is the only one whose range of magnitudes holds it. -/
theorem mulawSegment_eq {v : Int} {seg : Nat} (hlo : 128 * 2 ^ seg ≤ mulawMagnitude v)
    (hhi : mulawMagnitude v < 256 * 2 ^ seg) : mulawSegment v = seg := by
  have hlog : Nat.log2 (mulawMagnitude v) = seg + 7 := by
    rw [Nat.log2_eq_iff (by rw [mulawMagnitude]; omega), add_assoc, pow_add, pow_add]
    omega
  rw [mulawSegment, hlog]
  omega

/-- A value encodes to the code of its sign whose step holds its biased magnitude (40_tables.md R77). -/
theorem mulawEncode_eq_iff (v : Int) (c : Byte) :
    mulawEncode v = c ↔ (c.getLsbD 7 = true ↔ v < 0) ∧ mulawStepStart c ≤ mulawMagnitude v ∧
      mulawMagnitude v < mulawStepStart c + mulawStepSize c := by
  obtain ⟨esign, eseg, eman⟩ := mulawEncode_fields v
  obtain ⟨hstep, -⟩ := mulawStep_range v
  constructor
  · rintro rfl
    refine ⟨esign, ?_⟩
    rw [mulawStepStart, mulawStepSize, eseg, eman, Nat.add_sub_cancel' hstep, mulawStep_eq, ← Nat.succ_mul]
    exact ⟨Nat.div_mul_le_self .., (Nat.div_lt_iff_lt_mul (by positivity)).mp (Nat.lt_succ_self _)⟩
  · rintro ⟨hsign, hlo, hhi⟩
    have hman := (c.extractLsb' 0 4).isLt
    rw [mulawStepStart, mulawStepSize] at hlo hhi
    rw [← Nat.succ_mul] at hhi
    have hseg : mulawSegment v = (c.extractLsb' 4 3).toNat := by
      have hfirst := Nat.mul_le_mul_right (8 * 2 ^ (c.extractLsb' 4 3).toNat) (Nat.le_add_right 16 (c.extractLsb' 0 4).toNat)
      have hlast := Nat.mul_le_mul_right (8 * 2 ^ (c.extractLsb' 4 3).toNat)
        (show (16 + (c.extractLsb' 0 4).toNat).succ ≤ 32 by omega)
      exact mulawSegment_eq (by omega) (by omega)
    have hnum : mulawStep v = 16 + (c.extractLsb' 0 4).toNat := by
      rw [mulawStep_eq, hseg]
      exact Nat.div_eq_of_lt_le hlo hhi
    exact mulaw_code_ext (Bool.eq_iff_iff.mpr (esign.trans hsign.symm)) (eseg.trans hseg) (by omega)

/-- The negative zero 0x80 is the code of the first step, which begins 4 below the bias, so that only -1, -2 and -3 have it (log entry
21). -/
theorem mulawEncode_eq_negativeZero (v : Int) : mulawEncode v = 0x80 ↔ -3 ≤ v ∧ v ≤ -1 := by
  have hstart : mulawStepStart 0x80 = 128 := by decide
  have hsize : mulawStepSize 0x80 = 8 := by decide
  have hsign : (0x80 : Byte).getLsbD 7 = true := by decide
  rw [mulawEncode_eq_iff, hstart, hsize, mulawMagnitude]
  simp only [hsign, true_iff]
  omega

/-- The code is lossless on decoded values: the middle of a step lies in it. The negative zero alone loses its sign. -/
theorem mulawEncode_mulawDecode {c : Byte} (hc : c ≠ 0x80) : mulawEncode (mulawDecode c) = c := by
  obtain ⟨hstart, hend, hsize⟩ := mulawStepStart_bounds c
  have hmiddle : mulawCodeMiddle c = mulawStepStart c + mulawStepSize c / 2 := rfl
  rw [mulawEncode_eq_iff, mulawMagnitude, mulawDecode_eq]
  cases hsign : c.getLsbD 7 with
  | false =>
    simp only [Bool.false_eq_true, if_false, false_iff]
    omega
  | true =>
    have hnonzero : ¬ mulawCodeMiddle c ≤ 132 := fun h =>
      have ⟨hseg, hman⟩ := (mulawCodeMiddle_le_bias_iff c).mp h
      hc (mulaw_code_ext hsign hseg hman)
    simp only [if_true, true_iff]
    omega

/-! ## The error (40_tables.md R78) -/

/-- Up to the clip the error is at most half the step of the value's segment. -/
theorem mulaw_error_le_halfStep {v : Int} (h : v.natAbs ≤ 32635) :
    (mulawDecode (mulawEncode v) - v).natAbs ≤ 4 * 2 ^ mulawSegment v := by
  have hmag : mulawMagnitude v = v.natAbs + 132 := by rw [mulawMagnitude, Nat.min_eq_left h]
  obtain ⟨hup, hdown⟩ := mulawStepMiddle_near v
  rw [mulawDecode_mulawEncode]
  split <;> omega

/-- The magnitudes below 124 are those of segment 0. -/
theorem mulawSegment_eq_zero {v : Int} (h : v.natAbs < 124) : mulawSegment v = 0 :=
  mulawSegment_eq (by rw [mulawMagnitude]; omega) (by rw [mulawMagnitude]; omega)

/-- From the clip on a value decodes to the last middle with its own sign. -/
theorem mulawDecode_mulawEncode_clipped {v : Int} (h : 32635 ≤ v.natAbs) :
    mulawDecode (mulawEncode v) = if v < 0 then -32124 else 32124 := by
  rw [mulawDecode_mulawEncode, mulawStepMiddle_clipped h]
  rfl

/-- Settles O40, by the step that holds a value. -/
theorem mulawCodeErrorBounds : Obligations.MulawCodeErrorBounds := by
  unfold Obligations.MulawCodeErrorBounds
  refine ⟨fun c hc => mulawEncode_mulawDecode hc, by decide, fun v h1 h2 => ?_, ?_⟩
  · obtain ⟨-, hseg, -⟩ := mulawEncode_fields v
    have hhalf : v.natAbs ≤ 32635 → (mulawDecode (mulawEncode v) - v).natAbs ≤ 4 * 2 ^ mulawSegment v :=
      mulaw_error_le_halfStep
    refine ⟨mulawEncode_eq_negativeZero v, ?_, fun hsmall => ?_, fun hclip => ?_, fun hclip =>
      ⟨mulawDecode_mulawEncode_clipped hclip.le, mulaw_error_le h1 h2⟩⟩
    · rw [hseg]
      exact hhalf
    · have herr := hhalf (by omega)
      rwa [mulawSegment_eq_zero hsmall] at herr
    · have hpow : 2 ^ mulawSegment v ≤ 2 ^ 7 :=
        Nat.pow_le_pow_right (by omega) (Nat.le_of_lt_succ (mulawSegment_spec v).1)
      exact (hhalf hclip).trans (Nat.mul_le_mul_left 4 hpow)
  · rw [mulawDecode_mulawEncode_clipped (by decide)]
    decide

end Sys2Proof.Machine
end

section
/-! PROOFS. A sequence of writes to a ring buffer (41_ring_buffer.md R86, R87): how far the cursor and the fade move, which bytes stay,
what each written sample and each tail entry holds afterwards. -/

namespace Sys2Proof.Machine

/-! ## Between two values -/

/-- A point of the segment from `a` to `b`, rounded down, lies between the two. -/
theorem interpolated_between {m d : Int} (a b : Int) (hd : 0 < d) (h0 : 0 ≤ m) (h1 : m ≤ d) :
    min a b ≤ a + (b - a) * m / d ∧ a + (b - a) * m / d ≤ max a b := by
  rcases le_total a b with hab | hba
  · have hlo : 0 ≤ (b - a) * m / d := Int.ediv_nonneg (mul_nonneg (by omega) h0) hd.le
    have hhi : (b - a) * m / d ≤ b - a := Int.ediv_le_of_le_mul hd (mul_le_mul_of_nonneg_left h1 (by omega))
    omega
  · have hlo : b - a ≤ (b - a) * m / d := Int.le_ediv_of_mul_le hd (mul_le_mul_of_nonpos_left h1 (by omega))
    have hhi : (b - a) * m / d ≤ 0 :=
      Int.ediv_le_of_le_mul hd ((mul_nonpos_of_nonpos_of_nonneg (by omega) h0).trans (zero_mul d).ge)
    omega

section

variable {s t : State} {i j : Fin 2} {r q : Ring}

/-! ## What every write keeps -/

theorem Written.sameRegion (h : Written s t i) : SameRegion s.rings[i] t.rings[i] := by
  obtain ⟨f, r, rfl, -, -, hbound, henc, hspace, hbase, hsize, hn⟩ := h.effect
  rw [State.withRing_get_self]
  exact ⟨hbound, henc, hspace, hbase, hsize, hn⟩

theorem Written.ring_other (h : Written s t i) (hij : i ≠ j) : t.rings[j] = s.rings[j] := by
  obtain ⟨f, r, rfl, -⟩ := h.effect
  rw [State.withRing_get_other _ hij, State.mapMem_rings]

theorem Written.declared_size (h : Written s t i) (sp : Space) :
    (t.arena sp).declared = (s.arena sp).declared ∧ (t.arena sp).size = (s.arena sp).size := by
  obtain ⟨f, r, rfl, -⟩ := h.effect
  simp only [State.withRing_arena, State.mapMem_declared, State.mapMem_size, and_self]

theorem Written.wf (h : Written s t i) {sp : Space} (hw : (s.arena sp).mem.wf = true) : (t.arena sp).mem.wf = true := by
  obtain ⟨f, r, rfl, hf, -⟩ := h.effect
  rw [State.withRing_arena, State.mapMem_mem]
  split
  · rename_i hsp
    exact hf _ (hsp ▸ hw)
  · exact hw

/-- The arena of the ring buffer written stays in canonical form. -/
theorem Written.own_wf (h : Written s t i) (hw : (s.arena s.rings[i].space).mem.wf = true) :
    (t.arena t.rings[i].space).mem.wf = true := by
  rw [h.sameRegion.space]
  exact h.wf hw

/-- With the region the same only the cursor, the fade and the tail can differ. -/
theorem SameRegion.eq_with (h : SameRegion r q) : q = { r with wcur := q.wcur, fade := q.fade, tail := q.tail } := by
  obtain ⟨hbound, henc, hspace, hbase, hsize, hn⟩ := h
  rw [← hbound, ← henc, ← hspace, ← hbase, ← hsize, ← hn]

theorem SameRegion.inSample_iff (h : SameRegion r q) (a x : Nat) : inSample q a x ↔ inSample r a x := by
  rw [inSample, inSample, sampleAddress, sampleAddress, h.enc, h.base]

/-! ## One sample written (41_ring_buffer.md R86) -/

/-- A 16-bit value stored loads as its encoding holds it (20_memory.md R45, R46). -/
theorem rbLoad_rbStore (hw : (s.arena s.rings[i].space).mem.wf = true) (a : Nat) {v : Int} (h1 : -32768 ≤ v) (h2 : v ≤ 32767) :
    rbLoad (rbStore s i a v) i a = codedAs s.rings[i].enc v := by
  cases he : s.rings[i].enc with
  | linear16 => exact rbLoad_rbStore_linear hw he a h1 h2
  | mulaw8 => exact rbLoad_rbStore_mulaw hw he a v

theorem fadedValue_range {fade : Nat} (hf : fade ≤ 64) (k : Nat) {old x : Int} (hold : -32768 ≤ old ∧ old ≤ 32767)
    (hx : -32768 ≤ x ∧ x ≤ 32767) : -32768 ≤ fadedValue fade k old x ∧ fadedValue fade k old x ≤ 32767 := by
  unfold fadedValue
  split
  · have hbetween := interpolated_between (m := 65 + (k : Int) - fade) (d := 64) old x (by omega) (by omega) (by omega)
    omega
  · exact hx

/-- A fade that has run for `k` samples goes on where it stands. -/
theorem fadedValue_advanced (fade k : Nat) (old x : Int) : fadedValue (fade - k) 0 old x = fadedValue fade k old x := by
  by_cases hk : k < fade
  · rw [fadedValue, fadedValue, if_pos hk, if_pos (Nat.sub_pos_of_lt hk), Nat.cast_sub hk.le]
    congr 3
    push_cast
    ring
  · rw [fadedValue, fadedValue, if_neg hk, if_neg (by omega)]

/-- `RB_PUT` stores the next value of the fade over the sample at the cursor. -/
theorem rbFaded_eq (s : State) (i : Fin 2) (x : Int) :
    rbFaded s i x = fadedValue s.rings[i].fade.toNat 0 (rbLoad s i s.rings[i].wcur.toNat) x := by
  unfold rbFaded fadedValue
  dsimp only [Config.fadeLen, Config.fadeShift]
  split
  · rw [Int.shiftRight_eq_div_pow]
    congr 3
    push_cast
    ring
  · rfl

theorem rbPut_wcur (hc : s.rings[i].wcur.toNat < s.rings[i].n.toNat) (v : Int) :
    (rbPut s i v).rings[i].wcur.toNat = (s.rings[i].wcur.toNat + 1) % s.rings[i].n.toNat := by
  have hmod := Nat.mod_lt (s.rings[i].wcur.toNat + 1) (Nat.zero_lt_of_lt hc)
  rw [rbPut_ring, putRing, BitVec.toNat_ofNat, Nat.mod_eq_of_lt (hmod.trans s.rings[i].n.isLt)]

theorem rbPut_fade (s : State) (i : Fin 2) (v : Int) : (rbPut s i v).rings[i].fade.toNat = s.rings[i].fade.toNat - 1 := by
  rw [rbPut_ring, putRing]
  dsimp only
  split
  · rename_i hpos
    exact BitVec.toNat_sub_of_le (show (1 : BitVec 7) ≤ s.rings[i].fade from hpos)
  · omega

/-- The sample written loads as the encoding holds the faded value. -/
theorem rbPut_load_cursor (hw : (s.arena s.rings[i].space).mem.wf = true) (hf : s.rings[i].fade.toNat ≤ 64) (x : Half) :
    rbLoad (rbPut s i x.toInt) i s.rings[i].wcur.toNat = codedAs s.rings[i].enc
      (fadedValue s.rings[i].fade.toNat 0 (rbLoad s i s.rings[i].wcur.toNat) x.toInt) := by
  have hrange := fadedValue_range hf 0 (rbLoad_range s i s.rings[i].wcur.toNat) ⟨x.le_toInt, Int.le_of_lt_add_one x.toInt_lt⟩
  rw [rbPut_load, rbFaded_eq, rbLoad_rbStore hw _ hrange.1 hrange.2]

/-- The tail copy of the sample written is what that sample loads as. -/
theorem rbPut_tail_cursor {k : Fin 8} (hk : s.rings[i].wcur.toNat = k.val) (v : Int) :
    (rbPut s i v).rings[i].tail[k].toInt = rbLoad (rbPut s i v) i k.val := by
  obtain ⟨k, hlt⟩ := k
  subst hk
  have hrange := rbLoad_range (rbStore s i s.rings[i].wcur.toNat (rbFaded s i v)) i s.rings[i].wcur.toNat
  rw [rbPut_load, rbPut_ring, putRing_tail_eq, dif_pos hlt]
  exact (congrArg BitVec.toInt (Vector.getElem_set_self hlt)).trans (toInt_toHalf hrange.1 hrange.2)

theorem rbPut_tail_other {k : Fin 8} (hk : s.rings[i].wcur.toNat ≠ k.val) (v : Int) :
    (rbPut s i v).rings[i].tail[k] = s.rings[i].tail[k] := by
  rw [rbPut_ring, putRing_tail_eq]
  split
  · exact Vector.getElem_set_ne _ _ hk
  · rfl

/-! ## The samples of a write (41_ring_buffer.md R87) -/

/-- The index sample `k` of a write goes to (41_ring_buffer.md R86). -/
def writeIndex (r : Ring) (k : Nat) : Nat := (r.wcur.toNat + k) % r.n.toNat

/-- At most `N` samples go to different indices. -/
theorem writeIndex_ne {k l : Nat} (hk : k < l) (hl : l < r.n.toNat) : writeIndex r k ≠ writeIndex r l := fun h =>
  hk.ne ((Nat.ModEq.add_left_cancel' _ h).eq_of_lt_of_lt (hk.trans hl) hl)

/-- The bytes of one sample more. -/
theorem inWrite_succ (r : Ring) (count : Nat) (sp : Space) (x : Nat) :
    inWrite r (count + 1) sp x ↔ inWrite r count sp x ∨ (sp = r.space ∧ inSample r (writeIndex r count) x) := by
  simp only [inWrite, Nat.lt_succ_iff_lt_or_eq, or_and_right, exists_or, exists_eq_left, and_or_left, writeIndex]

/-- An open write of one sample more at the end writes that sample last. -/
theorem rbWrite_concat (s : State) (i : Fin 2) (xs : List Half) (x : Half) :
    rbWrite s i (xs ++ [x]) true = rbPut (rbWrite s i xs true) i x.toInt := by
  have hopen (ys : List Half) : rbWrite s i ys true = ys.foldl (fun t y => rbPut t i y.toInt) s := by cases ys <;> rfl
  rw [hopen, hopen, List.foldl_append]
  rfl

/-- The fade runs down by the number of samples. -/
theorem rbWrite_fade (s : State) (i : Fin 2) (xs : List Half) :
    (rbWrite s i xs true).rings[i].fade.toNat = s.rings[i].fade.toNat - xs.length := by
  induction xs using List.reverseRecOn with
  | nil => rfl
  | append_singleton xs x ih =>
    rw [rbWrite_concat, rbPut_fade, ih, List.length_append, Nat.sub_sub]
    rfl

section

variable (hc : s.rings[i].wcur.toNat < s.rings[i].n.toNat)

include hc

/-- The cursor stands where the next sample would go. -/
theorem rbWrite_wcur (xs : List Half) : (rbWrite s i xs true).rings[i].wcur.toNat = writeIndex s.rings[i] xs.length := by
  induction xs using List.reverseRecOn with
  | nil => exact (Nat.mod_eq_of_lt hc).symm
  | append_singleton xs x ih =>
    have hn := (rbWrite_written s i xs true).sameRegion.n
    have hlt : (rbWrite s i xs true).rings[i].wcur.toNat < (rbWrite s i xs true).rings[i].n.toNat := by
      rw [ih, hn]
      exact Nat.mod_lt _ (Nat.zero_lt_of_lt hc)
    rw [rbWrite_concat, rbPut_wcur hlt, ih, hn, writeIndex, Nat.mod_add_mod, List.length_append]
    rfl

/-- A tail entry whose sample the write does not reach stands. -/
theorem rbWrite_tail_other {xs : List Half} {j : Fin 8} (hj : ∀ k < xs.length, writeIndex s.rings[i] k ≠ j.val) :
    (rbWrite s i xs true).rings[i].tail[j] = s.rings[i].tail[j] := by
  induction xs using List.reverseRecOn with
  | nil => rfl
  | append_singleton xs v ih =>
    rw [List.length_append, List.length_singleton] at hj
    rw [rbWrite_concat, rbPut_tail_other, ih fun k hk => hj k (Nat.lt_succ_of_lt hk)]
    rw [rbWrite_wcur hc]
    exact hj _ (Nat.lt_succ_self _)

variable (hw : (s.arena s.rings[i].space).mem.wf = true)

include hw

/-- A byte of no sample of the write stands. -/
theorem rbWrite_byte?_other {xs : List Half} {sp : Space} {x : Nat} (hx : ¬ inWrite s.rings[i] xs.length sp x) :
    (rbWrite s i xs true).byte? sp x = s.byte? sp x := by
  induction xs using List.reverseRecOn with
  | nil => rfl
  | append_singleton xs v ih =>
    have hwr := rbWrite_written s i xs true
    rw [List.length_append, List.length_singleton, inWrite_succ, not_or] at hx
    obtain ⟨hbefore, hlast⟩ := hx
    rw [rbWrite_concat, rbPut_byte?_other (hwr.own_wf hw), ih hbefore]
    rwa [hwr.sameRegion.space, hwr.sameRegion.inSample_iff, rbWrite_wcur hc]

/-- A sample the write does not reach stands. -/
theorem rbWrite_load_other {xs : List Half} {a : Nat} (ha : ∀ k < xs.length, writeIndex s.rings[i] k ≠ a) :
    rbLoad (rbWrite s i xs true) i a = rbLoad s i a := by
  induction xs using List.reverseRecOn with
  | nil => rfl
  | append_singleton xs v ih =>
    rw [List.length_append, List.length_singleton] at ha
    rw [rbWrite_concat, rbPut_load_other ((rbWrite_written s i xs true).own_wf hw), ih fun k hk => ha k (Nat.lt_succ_of_lt hk)]
    rw [rbWrite_wcur hc]
    exact (ha _ (Nat.lt_succ_self _)).symm

/-- Each of at most `N` samples loads as the encoding holds its value, faded in over the old content of its own index: no other sample
of the write goes there. -/
theorem rbWrite_load {xs : List Half} (hf : s.rings[i].fade.toNat ≤ 64) (hlen : xs.length ≤ s.rings[i].n.toNat) {k : Nat}
    (hk : k < xs.length) :
    rbLoad (rbWrite s i xs true) i (writeIndex s.rings[i] k) = codedAs s.rings[i].enc
      (fadedValue s.rings[i].fade.toNat k (rbLoad s i (writeIndex s.rings[i] k)) xs[k].toInt) := by
  induction xs using List.reverseRecOn with
  | nil => exact absurd hk (Nat.not_lt_zero k)
  | append_singleton xs v ih =>
    have hwr := rbWrite_written s i xs true
    have hcur := rbWrite_wcur hc xs
    simp only [List.length_append, List.length_singleton] at hk hlen
    rw [rbWrite_concat]
    rcases Nat.lt_succ_iff_lt_or_eq.mp hk with hk' | rfl
    · rw [rbPut_load_other (hwr.own_wf hw), ih (by omega) hk', List.getElem_append_left hk']
      rw [hcur]
      exact writeIndex_ne hk' hlen
    · have hfade := rbWrite_fade s i xs
      have hput := rbPut_load_cursor (hwr.own_wf hw) (by omega) v
      rw [hcur, hfade, fadedValue_advanced, hwr.sameRegion.enc,
        rbWrite_load_other hc hw fun k hk => writeIndex_ne hk hlen] at hput
      rw [hput, List.getElem_concat_length]
      rfl

/-- A tail entry whose sample was written holds what that sample loads as, however often it was written. -/
theorem rbWrite_tail_written {xs : List Half} {j : Fin 8} (hj : ∃ k < xs.length, writeIndex s.rings[i] k = j.val) :
    (rbWrite s i xs true).rings[i].tail[j].toInt = rbLoad (rbWrite s i xs true) i j.val := by
  induction xs using List.reverseRecOn with
  | nil =>
    obtain ⟨k, hk, -⟩ := hj
    exact absurd hk (Nat.not_lt_zero k)
  | append_singleton xs v ih =>
    have hcur := rbWrite_wcur hc xs
    rw [rbWrite_concat]
    by_cases hlast : writeIndex s.rings[i] xs.length = j.val
    · exact rbPut_tail_cursor (hcur.trans hlast) _
    · have hne : (rbWrite s i xs true).rings[i].wcur.toNat ≠ j.val := fun e => hlast (hcur.symm.trans e)
      rw [rbPut_tail_other hne, rbPut_load_other ((rbWrite_written s i xs true).own_wf hw) hne.symm]
      obtain ⟨k, hk, hkj⟩ := hj
      rw [List.length_append, List.length_singleton, Nat.lt_succ_iff_lt_or_eq] at hk
      rcases hk with hk | rfl
      · exact ih ⟨k, hk, hkj⟩
      · exact absurd hkj hlast

end

end

end Sys2Proof.Machine
end

section
/-! PROOFS. The ring buffer commands (41_ring_buffer.md R84 to R94): what `RBINIT` binds, what `RBWF` writes with the gate open and
closed, what `RBRD` reads, and that written samples read back. -/

namespace Sys2Proof.Machine

section

variable {s : State} {i inst : Fin 2}

/-! ## Binding (41_ring_buffer.md R84, R85) -/

section

variable {space : Space} {enc : SampleFormat} {base size : BitVec 24}

theorem rbBind_ring_self (s : State) (inst : Fin 2) (space : Space) (enc : SampleFormat) (base size : BitVec 24) :
    (rbBind s inst space enc base size).rings[inst] = boundRing space enc base size := by
  rw [rbBind_eq, State.withRing_get_self]

/-- The bytes a binding leaves: those of its region are 0. -/
theorem rbBind_byte? (hw : (s.arena space).mem.wf = true) (inst : Fin 2) (enc : SampleFormat) (base size : BitVec 24)
    (sp : Space) (x : Nat) :
    (rbBind s inst space enc base size).byte? sp x =
      if sp = space ∧ base.toNat ≤ x ∧ x < base.toNat + size.toNat then some 0 else s.byte? sp x := by
  by_cases hsp : sp = space
  · subst hsp
    rw [rbBind_eq, State.withRing_byte?, State.mapMem_byte?, if_pos rfl, Memory.get?_zeroFill hw]
    simp only [true_and]
    rfl
  · rw [rbBind_byte?_other hsp, if_neg fun h => hsp h.1]

/-- Every sample of a fresh binding loads as 0: its bytes are bytes of the region. -/
theorem rbBind_load (hw : (s.arena space).mem.wf = true) (inst : Fin 2) {a : Nat}
    (ha : a < (boundRing space enc base size).n.toNat) : rbLoad (rbBind s inst space enc base size) inst a = 0 := by
  refine rbLoad_zero fun x hx => ?_
  rw [rbBind_ring_self] at hx ⊢
  obtain ⟨-, -, hlo, hhi⟩ := inRegion_of_inSample rfl (boundRing_n space enc base size) ha hx
  exact (rbBind_byte? hw ..).trans (if_pos ⟨rfl, hlo, hhi⟩)

theorem otherRing_ne (i : Fin 2) : otherRing i ≠ i := by
  revert i
  decide

/-- Where none of R85's conditions holds the region check of `RBINIT` passes. -/
theorem rbinitMisfit_of_not_regionMisfit (h : ¬ regionMisfit s inst space enc base.toNat size.toNat) :
    rbinitMisfit s inst space enc base size = false := by
  simp only [regionMisfit, not_or, not_exists, not_and] at h
  obtain ⟨hin, heven, hroom, hother⟩ := h
  simp only [rbinitMisfit, Bool.or_eq_false_iff, decide_eq_false_iff_not]
  refine ⟨⟨⟨hin, ?_⟩, ?_⟩, ?_⟩
  · cases enc with
    | linear16 => simpa [BitVec.getLsbD, Nat.testBit_zero] using heven rfl
    | mulaw8 => rfl
  · cases enc <;> exact hroom
  · refine Bool.eq_false_iff.mpr fun hall => ?_
    simp only [Bool.and_eq_true, decide_eq_true_eq] at hall
    obtain ⟨⟨⟨hb, hs⟩, hlo⟩, hhi⟩ := hall
    exact hother _ (otherRing_ne inst) hb hs hlo hhi

theorem exec_rbinit (hf : s.fault = false) (ht : s.tablesValid = true) (hi : s.inited = false)
    (hd : (s.arena space).declared = true) (hm : rbinitMisfit s inst space enc base size = false) :
    exec (.rbinit inst space enc base size) s = complete none (rbBind s inst space enc base size) := by
  show execRbinit inst space enc base size s = _
  rw [execRbinit, unlessFaulted_of_clear hf, ht, hi, hd, hm]
  rfl

end

/-- Settles O34: the check passes, and the binding writes the register set and zeroes the region. -/
theorem rbinitBindsAndZeroFills : Obligations.RbinitBindsAndZeroFills := by
  unfold Obligations.RbinitBindsAndZeroFills
  intro s inst space enc base size hf ht hi hd hw hm
  have hexec := exec_rbinit hf ht hi hd (rbinitMisfit_of_not_regionMisfit hm)
  have hbyte := rbBind_byte? hw inst enc base size
  have hload := fun a => rbBind_load (enc := enc) (base := base) (size := size) hw inst (a := a)
  have hring := rbBind_ring_self s inst space enc base size
  generalize hu : rbBind s inst space enc base size = u at hexec hbyte hload hring
  refine ⟨_, hexec, ?_, fun sp => ?_, ?_, ?_, fun other hne => ?_, hbyte, fun a ha => hload a (hring ▸ ha)⟩
  · obtain ⟨ml, ms, hbind⟩ := rbBind_frame s inst space enc base size
    rw [← hu, hbind]
  · show (u.arena sp).declared = _ ∧ (u.arena sp).size = _
    rw [← hu, rbBind_eq, State.withRing_arena, State.mapMem_declared, State.mapMem_size]
    exact ⟨rfl, rfl⟩
  · show u.rings[inst] = ⟨true, enc, space, base, size, u.rings[inst].n, 0, 0, Vector.replicate 8 0⟩
    rw [hring]
    rfl
  · show u.rings[inst].n.toNat = _
    rw [hring, boundRing_n]
    cases enc <;> rfl
  · show u.rings[other] = _
    rw [← hu, rbBind_eq, State.withRing_get_other _ hne.symm, State.mapMem_rings]

/-! ## The write with the gate open (41_ring_buffer.md R86 to R89) -/

section

variable {allow : Bool} {count stride src : BitVec 16}

/-- `RBWF` completes where the ring buffer is bound and the last source index lies inside `INBUF`. -/
theorem exec_rbwf (hf : s.fault = false) (ht : s.tablesValid = true) (hb : s.rings[inst].bound = true)
    (hlast : count = 0 ∨ src.toNat + (count.toNat - 1) * stride.toNat < 2 * s.blockSize) :
    exec (.rbwf inst allow count stride src) s =
      complete none (rbWrite s inst (rbwfSamples s count stride src) allow) := by
  have hinside : ¬(0 < count.toNat ∧ 2 * s.blockSize ≤ rbwfLast count stride src) := by
    rintro ⟨hpos, hle⟩
    rcases hlast with rfl | hlt
    · exact absurd hpos (by decide)
    · exact absurd hlt hle.not_gt
  show execRbwf inst allow count stride src s = _
  rw [execRbwf, unlessFaulted_of_clear hf, ht, hb, if_neg hinside]
  rfl

theorem rbwfSamples_length (s : State) (count stride src : BitVec 16) :
    (rbwfSamples s count stride src).length = count.toNat := by
  rw [rbwfSamples, List.length_map, List.length_range]

theorem rbwfSamples_getElem (s : State) (count stride src : BitVec 16) {k : Nat}
    (hk : k < (rbwfSamples s count stride src).length) :
    (rbwfSamples s count stride src)[k] = inbufFlat s (src.toNat + k * stride.toNat) := by
  simp only [rbwfSamples, List.getElem_map, List.getElem_range]

/-- A command that ends with a write changes, with its response and the count, the arena bytes and the ring buffers only. -/
theorem Written.complete_frame {u : State} (h : Written s u inst) :
    { u with resp := none, cmdcnt := u.cmdcnt + 1 } =
      { s with large := u.large, small := u.small, rings := u.rings, resp := none, cmdcnt := s.cmdcnt + 1 } := by
  obtain ⟨ml, ms, r, rfl⟩ := h.record
  rfl

end

/-- Settles O35: the cursor, the fade, the frame, the samples and the tail of an open write, each by its own lemma. -/
theorem rbwfWritesSamplesAtTheCursor : Obligations.RbwfWritesSamplesAtTheCursor := by
  unfold Obligations.RbwfWritesSamplesAtTheCursor
  intro s inst count stride src hf ht hb hlast hw hc
  have hlen := rbwfSamples_length s count stride src
  have hexec := exec_rbwf (allow := true) hf ht hb hlast
  have hsample := fun k hk => rbwfSamples_getElem s count stride src (k := k) hk
  generalize rbwfSamples s count stride src = xs at hlen hexec hsample
  have hwr := rbWrite_written s inst xs true
  refine ⟨_, hexec, hwr.complete_frame, hwr.declared_size, fun other hne => hwr.ring_other hne.symm, hwr.sameRegion.eq_with,
    ?_, ?_, fun sp x hx => ?_, fun hfade hcount k hk => ?_, fun j => ⟨?_, ?_⟩⟩
  · exact hlen ▸ rbWrite_wcur hc xs
  · exact hlen ▸ rbWrite_fade s inst xs
  · exact rbWrite_byte?_other hc hw (hlen ▸ hx)
  · rw [← hlen] at hk hcount
    exact hsample k hk ▸ rbWrite_load hc hw hfade hcount hk
  · exact hlen ▸ rbWrite_tail_written hc hw
  · exact hlen ▸ rbWrite_tail_other hc

/-! ## Reading (41_ring_buffer.md R90, R91) -/

/-- The second tap of a read (41_ring_buffer.md R90): the next sample, the tail copy of the first past the end. -/
def secondTap (s : State) (i : Fin 2) (p : Nat) : Int :=
  if p + 1 < s.rings[i].n.toNat then rbLoad s i (p + 1) else s.rings[i].tail[0].toInt

theorem rbReadAbs_eq (s : State) (i : Fin 2) (p frac : Nat) :
    rbReadAbs s i p frac = rbLoad s i p + (secondTap s i p - rbLoad s i p) * (frac : Int) / 65536 := by
  show _ + (_ : Int) >>> 16 = _
  rw [shr_ofNat]
  rfl

/-- At fraction 0 a read is its first tap. -/
theorem rbReadAbs_zero (s : State) (i : Fin 2) (p : Nat) : rbReadAbs s i p 0 = rbLoad s i p := by
  simp [rbReadAbs_eq]

theorem secondTap_range (s : State) (i : Fin 2) (p : Nat) : -32768 ≤ secondTap s i p ∧ secondTap s i p ≤ 32767 := by
  unfold secondTap
  split
  · exact rbLoad_range ..
  · exact ⟨BitVec.le_toInt _, Int.le_of_lt_add_one (BitVec.toInt_lt)⟩

/-- A read stays below a second tap that is greater than the first. -/
theorem rbReadAbs_lt_secondTap {p frac : Nat} (hfrac : frac < 65536) (h : rbLoad s i p < secondTap s i p) :
    rbReadAbs s i p frac < secondTap s i p := by
  rw [rbReadAbs_eq]
  have hlt : (secondTap s i p - rbLoad s i p) * frac / 65536 < secondTap s i p - rbLoad s i p :=
    Int.ediv_lt_of_lt_mul (by decide) (mul_lt_mul_of_pos_left (by omega) (by omega))
  omega

theorem exec_rbrd {offset : BitVec 32} {frac : BitVec 16} (hf : s.fault = false) (ht : s.tablesValid = true)
    (hb : s.rings[inst].bound = true) :
    exec (.rbrd inst offset frac) s = complete (some (toWord (rbRead s inst offset.toNat frac.toNat))) s := by
  show execRbrd inst offset frac s = _
  rw [execRbrd, unlessFaulted_of_clear hf, ht, hb]
  rfl

/-- Settles O37: the formula of the read, and the bounds of a point between two 16-bit taps. -/
theorem rbrdInterpolatesBehindTheCursor : Obligations.RbrdInterpolatesBehindTheCursor := by
  unfold Obligations.RbrdInterpolatesBehindTheCursor
  refine ⟨fun s inst offset frac hf ht hb => ?_, fun s i p frac hfrac => ?_⟩
  · rw [exec_rbrd hf ht hb, rbRead, rbReadAbs_eq]
    rfl
  · show min _ (secondTap s i p) ≤ _ ∧ _ ≤ max _ (secondTap s i p) ∧ _ ∧ (_ < secondTap s i p → _ < secondTap s i p) ∧ _
    have hfirst := rbLoad_range s i p
    have hsecond := secondTap_range s i p
    have hbetween := interpolated_between (m := frac) (d := 65536) (rbLoad s i p) (secondTap s i p)
      (by decide) (by omega) (by omega)
    rw [← rbReadAbs_eq] at hbetween
    obtain ⟨hlo, hhi⟩ := hbetween
    exact ⟨hlo, hhi, rbReadAbs_zero s i p, rbReadAbs_lt_secondTap hfrac, by omega, by omega⟩

/-! ## Reading back (41_ring_buffer.md R93) -/

/-- Behind the cursor a write of `count` samples leaves, its sample `k` is `count - 1 - k` back. -/
theorem rbBehind_of_wcur {r q : Ring} {count k : Nat} (hq : q.wcur.toNat = writeIndex r count) (hn : q.n = r.n)
    (hk : k < count) : rbBehind q (count - 1 - k) = writeIndex r k := by
  have hback : ((writeIndex r count : Int) - 1 - (count - 1 - k : Nat)) % r.n.toNat = (writeIndex r k : Nat) := by
    have hd : ((count - 1 - k : Nat) : Int) = count - 1 - k := by omega
    rw [hd, writeIndex, writeIndex, Int.sub_sub, Int.natCast_mod, Int.emod_sub_emod, Int.natCast_mod]
    congr 1
    push_cast
    ring
  rw [rbBehind, hq, hn, hback, Int.toNat_natCast]

/-- Settles O38: with no fade each sample of the write holds its own value, and the read at fraction 0 is the load at its index. -/
theorem writtenSamplesReadBack : Obligations.WrittenSamplesReadBack := by
  unfold Obligations.WrittenSamplesReadBack
  intro s i xs hl hs hc hfade hlen ⟨k, hk⟩
  have hw : (s.arena s.rings[i].space).mem.wf = true :=
    space_forall (p := fun sp => (s.arena sp).mem.wf = true).mpr ⟨hl, hs⟩ _
  have hzero : s.rings[i].fade.toNat = 0 := by rw [hfade]; rfl
  have hload := rbWrite_load hc hw (by omega) hlen hk
  rw [hzero, fadedValue, if_neg (Nat.not_lt_zero k)] at hload
  rw [rbRead, rbReadAbs_zero, rbBehind_of_wcur (rbWrite_wcur hc xs) (rbWrite_written s i xs true).sameRegion.n hk, hload]
  rfl

/-! ## The write with the gate closed (41_ring_buffer.md R94) -/

/-- The state with the write fade of a ring buffer restarted. -/
def State.refaded (s : State) (i : Fin 2) : State := s.withRing i { s.rings[i] with fade := 64 }

theorem State.refaded_refaded (s : State) (i : Fin 2) : (s.refaded i).refaded i = s.refaded i := by
  rw [State.refaded, State.refaded, State.withRing_withRing, State.withRing_get_self]

/-- A frozen write of no sample does nothing, any other restarts the fade. -/
theorem rbWrite_frozen_eq (s : State) (i : Fin 2) (xs : List Half) :
    rbWrite s i xs false = if xs = [] then s else s.refaded i := by
  split
  · rename_i hxs
    rw [hxs]
    rfl
  · rename_i hxs
    exact rbWrite_frozen s i xs hxs

/-- A sequence of frozen writes does nothing or what one of them does. -/
theorem frozenWrites_cases (s : State) (i : Fin 2) (xss : List (List Half)) :
    xss.foldl (fun t xs => rbWrite t i xs false) s = s ∨
      xss.foldl (fun t xs => rbWrite t i xs false) s = s.refaded i := by
  induction xss using List.reverseRecOn with
  | nil => exact .inl rfl
  | append_singleton xss xs ih =>
    rw [List.foldl_append, List.foldl_cons, List.foldl_nil, rbWrite_frozen_eq]
    split
    · exact ih
    · rcases ih with ih | ih
      · exact .inr (by rw [ih])
      · exact .inr (by rw [ih, State.refaded_refaded])

/-- A read does not depend on the fade. -/
theorem rbRead_refaded (s : State) (i : Fin 2) (d frac : Nat) : rbRead (s.refaded i) i d frac = rbRead s i d frac := by
  have hload (a : Nat) : rbLoad (s.refaded i) i a = rbLoad s i a := rbLoad_withRing s i _ a rfl rfl rfl
  have hring : (s.refaded i).rings[i] = { s.rings[i] with fade := 64 } := State.withRing_get_self ..
  simp only [rbRead, rbReadAbs_eq, secondTap, hload, hring, rbBehind]

theorem rbwfSamples_eq_nil_iff (s : State) (count stride src : BitVec 16) : rbwfSamples s count stride src = [] ↔ count = 0 := by
  rw [← List.length_eq_zero_iff, rbwfSamples_length, ← BitVec.toNat_inj]
  rfl

/-- Settles O36: frozen writes restart the fade or do nothing, and `RBWF` with the gate closed is one of them. -/
theorem frozenWritesChangeOnlyTheFade : Obligations.FrozenWritesChangeOnlyTheFade := by
  unfold Obligations.FrozenWritesChangeOnlyTheFade
  refine ⟨fun s i xss => ?_, fun s i xs ys hxs => ?_, fun s inst count stride src hf ht hb hlast => ?_⟩
  · rcases frozenWrites_cases s i xss with h | h <;> rw [h]
    · exact ⟨.inl rfl, fun _ _ => rfl⟩
    · exact ⟨.inr rfl, rbRead_refaded s i⟩
  · rw [rbWrite_frozen_eq s, if_neg hxs, rbWrite_frozen_eq, State.refaded_refaded, ite_self]
  · have hexec := exec_rbwf (allow := false) hf ht hb hlast
    rw [rbWrite_frozen_eq] at hexec
    simp only [rbwfSamples_eq_nil_iff] at hexec
    refine ⟨_, hexec, ?_⟩
    split
    · exact ⟨rfl, fun _ _ => rfl, rfl⟩
    · exact ⟨rfl, fun other hne => State.withRing_get_other s hne.symm _, State.withRing_get_self ..⟩

end

end Sys2Proof.Machine
end

section
/-! PROOFS. The filter commands (42_svf.md R96 to R102): what `SVF_SET` puts in each coefficient, one filter step in exact integers, and
that each command writes one instance alone. -/

namespace Sys2Proof.Machine

/-! ## Coefficients (42_svf.md R99) -/

/-- The tangent polynomial as R99 writes it. -/
theorem svfTan_eq (f : Nat) :
    svfTan f = f * (205887 + f * f / 65536 * (677342 + 2674041 * (f * f / 65536) / 65536) / 65536) / 65536 := by
  simp only [svfTan, Nat.shiftRight_eq_div_pow]
  rfl

/-- The third coefficient for a tangent and a reciprocal, as R99 writes it. -/
theorem svfH_eq (g r : Nat) :
    2 ^ 32 / (65536 + ((r * g) >>> 16) + ((g * g) >>> 16)) = 2 ^ 32 / (65536 + r * g / 65536 + g * g / 65536) := by
  simp only [Nat.shiftRight_eq_div_pow, Nat.reducePow]

theorem clampNat_q_range (q : Nat) :
    Config.qMin ≤ clampNat q Config.qMin Config.qMax ∧ clampNat q Config.qMin Config.qMax ≤ Config.qMax := by
  unfold clampNat Config.qMin Config.qMax
  omega

section

variable (v : Svf) (f q : Nat)

theorem svfSet_f : (svfSet v f q).f.toNat = min f Config.fMax := by
  have hle : min f Config.fMax ≤ 32702 := Nat.min_le_right f Config.fMax
  exact Nat.mod_eq_of_lt (by omega)

theorem svfSet_q : (svfSet v f q).q.toNat = clampNat q Config.qMin Config.qMax := by
  have hle : clampNat q Config.qMin Config.qMax ≤ 16777215 := (clampNat_q_range q).2
  exact Nat.mod_eq_of_lt (by omega)

theorem svfSet_g : (svfSet v f q).g.toNat = svfTan (min f Config.fMax) := by
  have hle := svfTan_le (Nat.min_le_right f Config.fMax)
  exact Nat.mod_eq_of_lt (by omega)

theorem svfSet_r : (svfSet v f q).r.toNat = 2 ^ 32 / clampNat q Config.qMin Config.qMax := by
  obtain ⟨hmin, hmax⟩ := clampNat_q_range q
  have hle := (svfR_range hmin hmax).2
  exact Nat.mod_eq_of_lt (by omega)

/-- The third coefficient is the formula of the two the instance holds. -/
theorem svfSet_h :
    (svfSet v f q).h.toNat =
      2 ^ 32 / (65536 + (svfSet v f q).r.toNat * (svfSet v f q).g.toNat / 65536 +
        (svfSet v f q).g.toNat * (svfSet v f q).g.toNat / 65536) := by
  obtain ⟨hg, ⟨-, hr⟩, -⟩ := svfOk_set v f q
  have hle := (svfH_range hg hr).2
  rw [← svfH_eq]
  rw [svfSet_g, svfSet_r] at hle ⊢
  exact Nat.mod_eq_of_lt (by omega)

end

/-- Settles O42: each coefficient by its formula, the ranges that `SVF_SET` always leaves, and the listed values evaluated. -/
theorem filterCoefficientFormulas : Obligations.FilterCoefficientFormulas := by
  unfold Obligations.FilterCoefficientFormulas
  refine ⟨fun v f q => ?_, fun v => ⟨⟨rfl, rfl, rfl⟩, ⟨rfl, rfl⟩, ⟨rfl, rfl, rfl⟩, ⟨rfl, rfl, rfl⟩, ⟨rfl, rfl, rfl⟩,
    ⟨rfl, rfl, rfl⟩, rfl, rfl, rfl, rfl, rfl⟩⟩
  intro f' q' f2 g r h
  have hf : (svfSet v f q).f.toNat = f' := svfSet_f v f q
  have hq : (svfSet v f q).q.toNat = q' := svfSet_q v f q
  have hg : (svfSet v f q).g.toNat = g := (svfSet_g v f q).trans (svfTan_eq f')
  have hr : (svfSet v f q).r.toNat = r := svfSet_r v f q
  have hh : (svfSet v f q).h.toNat = h := by rw [svfSet_h, hg, hr]
  obtain ⟨hgOk, ⟨hrMin, hrMax⟩, ⟨hhMin, hhMax⟩, -, -⟩ := svfOk_set v f q
  rw [hg] at hgOk
  rw [hr] at hrMin hrMax
  rw [hh] at hhMin hhMax
  exact ⟨hgOk, hrMin, hrMax, hhMin, hhMax, hf, hq, hg, hr, hh, rfl⟩

/-! ## Commands (42_svf.md R98, R100 to R102) -/

/-- A filter step with its shifts as floor divisions (42_svf.md R101). -/
theorem svfStep_eq (v : Svf) (x : Int) :
    svfStep v x =
      let g : Int := v.g.toNat
      let hp := ((x * 256 - (v.r.toNat + g) * v.s1.toInt / 65536 - v.s2.toInt) * v.h.toNat) / 65536
      let bp := g * hp / 65536 + v.s1.toInt
      let lp := g * bp / 65536 + v.s2.toInt
      { v with
        s1 := BitVec.ofInt 40 (sat40 (g * hp / 65536 + bp))
        s2 := BitVec.ofInt 40 (sat40 (g * bp / 65536 + lp))
        lp := BitVec.ofInt 32 (sat32 (lp / 256))
        hp := BitVec.ofInt 32 (sat32 (hp / 256))
        bp := BitVec.ofInt 32 (sat32 (bp / 256))
        notch := BitVec.ofInt 32 (sat32 ((hp + lp) / 256)) } := by
  simp only [svfStep, shr_ofNat]
  rfl

section

variable {s : State} (inst : Fin 8)

/-- A completed write of one filter: the frame of the state, the other filters, and the filter written. -/
theorem complete_withSvf (s : State) (v : Svf) :
    ∃ t, complete none (s.withSvf inst v) = .next t ∧
      t = { s with svfs := t.svfs, resp := none, cmdcnt := s.cmdcnt + 1 } ∧
      (∀ j, j ≠ inst → t.svfs[j] = s.svfs[j]) ∧ t.svfs[inst] = v :=
  ⟨_, rfl, rfl, fun _ hne => s.withSvf_get_other hne.symm v, s.withSvf_get_self inst v⟩

variable (hf : s.fault = false) (ht : s.tablesValid = true)

include hf ht

theorem exec_svfrst : exec (.svfrst inst) s = complete none (s.withSvf inst (svfClear s.svfs[inst])) := by
  show execSvfrst inst s = _
  rw [execSvfrst, unlessFaulted_of_clear hf, ht]
  rfl

theorem exec_svfset (f : BitVec 16) (q : BitVec 32) :
    exec (.svfset inst f q) s = complete none (s.withSvf inst (svfSet s.svfs[inst] f.toNat q.toNat)) := by
  show execSvfset inst f q s = _
  rw [execSvfset, unlessFaulted_of_clear hf, ht]
  rfl

theorem exec_svfstep (x : BitVec 32) :
    exec (.svfstep inst x) s = complete none (s.withSvf inst (svfStep s.svfs[inst] x.toInt)) := by
  show execSvfstep inst x s = _
  rw [execSvfstep, unlessFaulted_of_clear hf, ht]
  rfl

end

/-- Settles O41: with no fault and the tables valid each of the three commands completes a write of its own filter. -/
theorem filterCommandsTouchOneInstance : Obligations.FilterCommandsTouchOneInstance := by
  unfold Obligations.FilterCommandsTouchOneInstance
  intro s inst hf ht
  refine ⟨?_, fun f q => ?_, fun x => ?_⟩
  · rw [exec_svfrst inst hf ht]
    exact complete_withSvf inst s _
  · rw [exec_svfset inst hf ht]
    exact complete_withSvf inst s _
  · rw [exec_svfstep inst hf ht, svfStep_eq]
    exact complete_withSvf inst s _

end Sys2Proof.Machine
end

section
/-! PROOFS. The soft limiter (43_limiter_crossfade.md R104, R105): the odd extension of a monotone function of the magnitude. -/

namespace Sys2Proof.Machine

/-- What the soft limiter gives on an input of magnitude `m` (43_limiter_crossfade.md R104). -/
def limMagnitude (m : Nat) : Int :=
  let k : Int := min (m : Int) 49152
  min 32767 (k - 4854 * k * k * k / 2 ^ 45)

/-- `SOFT_LIMIT` in exact integers: the sign of the input on the limited magnitude. -/
theorem softLimit_eq (x : Int) :
    softLimit x = if x < 0 then -limMagnitude x.natAbs else limMagnitude x.natAbs := by
  simp only [softLimit, shr_ofNat]
  rfl

theorem softLimit_of_nonneg {x : Int} (h : 0 ≤ x) : softLimit x = limMagnitude x.natAbs := by
  rw [softLimit_eq, if_neg (not_lt.mpr h)]

theorem softLimit_of_nonpos {x : Int} (h : x ≤ 0) : softLimit x = -limMagnitude x.natAbs := by
  rcases h.lt_or_eq with h | rfl
  · rw [softLimit_eq, if_pos h]
  · decide

theorem softLimit_neg (x : Int) : softLimit (-x) = -softLimit x := by
  rcases le_total 0 x with h | h
  · rw [softLimit_of_nonneg h, softLimit_of_nonpos (neg_nonpos.mpr h), Int.natAbs_neg]
  · rw [softLimit_of_nonpos h, softLimit_of_nonneg (neg_nonneg.mpr h), Int.natAbs_neg, neg_neg]

/-- Up to the knee the cubic term grows no faster than the linear one, since `3 * 4854 * 49152 ^ 2 ≤ 2 ^ 45`. -/
theorem cubic_sub_linear_le {a b : Int} (ha : 0 ≤ a) (hab : a ≤ b) (hb : b ≤ 49152) :
    4854 * b * b * b - 2 ^ 45 * b ≤ 4854 * a * a * a - 2 ^ 45 * a := by
  have haa : a * a ≤ 49152 * 49152 := by gcongr <;> omega
  have hab' : a * b ≤ 49152 * 49152 := by gcongr <;> omega
  have hbb : b * b ≤ 49152 * 49152 := by gcongr; omega
  have hslope : 0 ≤ 2 ^ 45 - 4854 * (a * a + a * b + b * b) := by linarith
  linarith [mul_nonneg (sub_nonneg.mpr hab) hslope]

theorem limMagnitude_mono : Monotone limMagnitude := by
  intro a b hab
  have hcubic := cubic_sub_linear_le (a := min (a : Int) 49152) (b := min (b : Int) 49152) (by omega) (by omega) (by omega)
  simp only [limMagnitude]
  omega

theorem limMagnitude_nonneg (m : Nat) : 0 ≤ limMagnitude m := by
  have hzero : limMagnitude 0 = 0 := by decide
  exact hzero.ge.trans (limMagnitude_mono (Nat.zero_le m))

theorem limMagnitude_le_max (m : Nat) : limMagnitude m ≤ 32767 := min_le_left _ _

theorem limMagnitude_le_self (m : Nat) : limMagnitude m ≤ m := by
  have hcubic : 0 ≤ 4854 * min (m : Int) 49152 * min (m : Int) 49152 * min (m : Int) 49152 := by positivity
  simp only [limMagnitude]
  omega

/-- The cubic term is below one unit up to 1935. -/
theorem limMagnitude_of_le {m : Nat} (h : m ≤ 1935) : limMagnitude m = m := by
  have hk : min (m : Int) 49152 = m := by omega
  have hlo : (0 : Int) ≤ 4854 * m * m * m := by positivity
  have hhi : 4854 * (m : Int) * m * m ≤ 4854 * 1935 * 1935 * 1935 := by gcongr <;> omega
  simp only [limMagnitude, hk]
  omega

theorem limMagnitude_of_ge {m : Nat} (h : 48725 ≤ m) : limMagnitude m = 32767 := by
  have hfull : limMagnitude 48725 = 32767 := by decide
  exact le_antisymm (limMagnitude_le_max m) (hfull.ge.trans (limMagnitude_mono h))

theorem softLimit_mono : Monotone softLimit := by
  intro x y hxy
  rcases le_total 0 x with hx | hx
  · rw [softLimit_of_nonneg hx, softLimit_of_nonneg (hx.trans hxy)]
    exact limMagnitude_mono (by omega)
  rw [softLimit_of_nonpos hx]
  rcases le_total 0 y with hy | hy
  · rw [softLimit_of_nonneg hy]
    linarith [limMagnitude_nonneg x.natAbs, limMagnitude_nonneg y.natAbs]
  · rw [softLimit_of_nonpos hy]
    exact neg_le_neg (limMagnitude_mono (by omega))

theorem natAbs_softLimit (x : Int) : ((softLimit x).natAbs : Int) = limMagnitude x.natAbs := by
  have hpos := limMagnitude_nonneg x.natAbs
  rw [softLimit_eq]
  split <;> omega

/-- Settles O44: each property from the one of the limited magnitude. -/
theorem softLimiterProperties : Obligations.SoftLimiterProperties := by
  unfold Obligations.SoftLimiterProperties
  intro x
  have habs := natAbs_softLimit x
  have hmax := limMagnitude_le_max x.natAbs
  have hself := limMagnitude_le_self x.natAbs
  refine ⟨softLimit_neg x, fun y hxy => softLimit_mono hxy, by omega, by omega, fun hx => ?_, by decide, by omega,
    fun hx => ?_, fun hx => ?_, by decide⟩
  · rw [softLimit_eq, limMagnitude_of_le hx]
    split <;> omega
  · rw [softLimit_of_nonneg (by omega), limMagnitude_of_ge (by omega)]
  · rw [softLimit_of_nonpos (by omega), limMagnitude_of_ge (by omega)]

end Sys2Proof.Machine
end

section
/-! PROOFS. The crossfade, the commands `LIM` and `XFADE`, and the scheduler (43_limiter_crossfade.md R106 to R110): one sample of the
mix, the dry/wet ramp, and the output block of a `PROCESS` that passes its gate. -/

namespace Sys2Proof.Machine

/-! ## One sample of the mix (43_limiter_crossfade.md R107, R110) -/

theorem sat16_eq (v : Int) : sat16 v = max (-32768) (min v 32767) := by
  unfold sat16 clamp
  omega

theorem toInt_toHalf_sat16 (v : Int) : (toHalf (sat16 v)).toInt = sat16 v := by
  have h := sat16_eq v
  exact toInt_toHalf (by omega) (by omega)

/-- `XFADE_MIX` with its shifts as floor divisions. -/
theorem xfadeMix_eq (dw : Nat) (dry wet : Int) :
    xfadeMix dw dry wet =
      max (-32768) (min (dry * xfLookup tblXfOut dw / 32768 + wet * 39322 / 32768 * xfLookup tblXfIn dw / 32768) 32767) := by
  rw [← sat16_eq]
  simp only [xfadeMix, shr_ofNat]
  rfl

theorem mixFrame_channel (dw : Nat) (dry wet : Frame) (c : Fin 2) :
    ((mixFrame dw dry wet).channel c).toInt = xfadeMix dw (dry.channel c).toInt (wet.channel c).toInt := by
  unfold Frame.channel
  split <;> exact toInt_toHalf_sat16 _

/-- At position 0 the wet gain is 0, and the dry gain is below 1, so nothing saturates. -/
theorem xfadeMix_zero (dry : BitVec 16) (wet : Int) : xfadeMix 0 dry.toInt wet = dry.toInt * 23170 / 32768 := by
  have hin : xfLookup tblXfIn 0 = 0 := by decide
  have hout : xfLookup tblXfOut 0 = 23170 := by decide
  have hlo := dry.le_toInt
  have hhi := dry.toInt_lt
  rw [xfadeMix_eq, hin, hout]
  omega

/-- At position 32768 the dry gain is 0. -/
theorem xfadeMix_full (dry wet : Int) :
    xfadeMix 32768 dry wet = max (-32768) (min (wet * 39322 / 32768 * 23170 / 32768) 32767) := by
  have hin : xfLookup tblXfIn 32768 = 23170 := by decide
  have hout : xfLookup tblXfOut 32768 = 0 := by decide
  rw [xfadeMix_eq, hin, hout, mul_zero, Int.zero_ediv, zero_add]

/-! ## The commands (43_limiter_crossfade.md R106, R108) -/

section

variable {s : State} (hf : s.fault = false) (ht : s.tablesValid = true)

include hf ht

theorem exec_lim (x : BitVec 32) : exec (.lim x) s = complete (some (toWord (softLimit x.toInt))) s := by
  show execLim x s = _
  rw [execLim, unlessFaulted_of_clear hf, ht]
  rfl

theorem exec_xfade {dw : BitVec 16} (dry wet : BitVec 16) (h : dw.toNat ≤ 32768) :
    exec (.xfade dw dry wet) s = complete (some (toWord (xfadeMix dw.toNat dry.toInt wet.toInt))) s := by
  show execXfade dw dry wet s = _
  rw [execXfade, unlessFaulted_of_clear hf, ht, if_neg (not_lt.mpr h)]
  rfl

end

/-- Settles O43: both commands pass their checks and respond with the value their formula gives. -/
theorem limAndXfadeRespond : Obligations.LimAndXfadeRespond := by
  unfold Obligations.LimAndXfadeRespond
  refine ⟨fun s x hf ht => ?_, fun s dw dry wet hf ht hdw => ?_⟩
  · rw [exec_lim hf ht, softLimit_eq]
    rfl
  · rw [exec_xfade hf ht dry wet hdw, xfadeMix_eq]
    rfl

/-! ## The scheduler (43_limiter_crossfade.md R109) -/

theorem rampAt_same (v n k : Nat) : rampAt v v n k = v := by
  simp [rampAt]

/-- The last position of a ramp is its target, also when the ramp falls. -/
theorem rampAt_last (prev target : Nat) {n : Nat} (hn : 0 < n) : rampAt prev target n (n - 1) = target := by
  have hlast : ((n - 1 : Nat) : Int) + 1 = n := by omega
  rw [rampAt, hlast, Int.mul_ediv_cancel_left _ (by omega)]
  omega

/-- A ramp's step is the difference of its ends times a fraction between 0 and 1, rounded down. -/
theorem rampAt_between (prev target : Nat) {n k : Nat} (hk : k < n) :
    min (prev : Int) target ≤ rampAt prev target n k ∧ rampAt prev target n k ≤ max (prev : Int) target := by
  have hn : (0 : Int) < n := by omega
  have hpos : (0 : Int) ≤ k + 1 := by omega
  have hle : (k : Int) + 1 ≤ n := by omega
  unfold rampAt
  rcases le_total (0 : Int) ((target : Int) - prev) with hd | hd
  · have h0 := Int.ediv_nonneg (mul_nonneg hpos hd) hn.le
    have h1 := Int.ediv_le_of_le_mul hn ((mul_le_mul_of_nonneg_right hle hd).trans_eq (mul_comm _ _))
    omega
  · have h0 := Int.ediv_le_ediv hn (mul_nonpos_of_nonneg_of_nonpos hpos hd)
    have h1 := (Int.le_ediv_iff_mul_le hn).mpr ((mul_comm _ _).trans_le (mul_le_mul_of_nonpos_right hle hd))
    rw [Int.zero_ediv] at h0
    omega

/-- Each sample of the mixed block is the mix, at its ramp position, of the dry and the wet sample. -/
theorem sampleOf_mixBlock {n k : Nat} (prev target : Nat) (dry : List Frame) (wet : Vector Frame n) (c : Fin 2) (hk : k < n) :
    sampleOf (mixBlock prev target dry wet).toList c k =
      xfadeMix (rampAt prev target n k).toNat (sampleOf dry c k) (sampleOf wet.toList c k) := by
  have hwet : wet.toList.getD k ⟨0, 0⟩ = wet[k] := by simp [hk]
  have hmix : (mixBlock prev target dry wet).toList.getD k ⟨0, 0⟩ =
      mixFrame (rampAt prev target n k).toNat (dry.getD k Frame.zero) wet[k] := by simp [mixBlock, hk]
  rw [sampleOf, hmix, mixFrame_channel, sampleOf, sampleOf, hwet]
  rfl

/-- A `PROCESS` of the right size that passes its gate completes with the pipeline's block (48_sequencer.md R156). -/
theorem exec_process_of_gate_open {s : State} {size : BitVec 16} (hf : s.fault = false) (hi : s.inited = true)
    (hb : s.bypass = false) (hs : s.silence = false) (hst : stable s) (hsize : size.toNat = s.blockSize) :
    exec (.process size) s = complete none (processBlock s) := by
  obtain ⟨hr, hm⟩ := hst
  have hgate : s.gated = false := by simp [State.gated, hs, hr, hm]
  show execProcess size s = _
  rw [execProcess, unlessFaulted_of_clear hf, hi, if_neg (by decide), if_neg (not_not.mpr hsize), processSteps, hb, hgate]
  rfl

/-- Settles O45: the ramp's bounds, and the output block as the crossfade of the input block and the wet block. -/
theorem crossfadeRampAndEndpoints : Obligations.CrossfadeRampAndEndpoints := by
  unfold Obligations.CrossfadeRampAndEndpoints
  refine ⟨fun prev target n k => ?_, fun s size hf hi hb hs hst hsize => ?_⟩
  · obtain ⟨hlo, hhi⟩ := rampAt_between prev target k.isLt
    exact ⟨hlo, hhi, rampAt_last prev target k.pos⟩
  · refine ⟨_, exec_process_of_gate_open hf hi hb hs hst hsize, congrArg State.dwPrev (processBlock_eq s), ?_⟩
    intro n wet
    have hout := processBlock_outbuf s
    refine ⟨(congrArg List.length hout).trans Vector.length_toList, fun k c hk => ?_⟩
    intro x w y prev dw
    have hy : y = xfadeMix dw x w :=
      (congrArg (sampleOf · c k) hout).trans (sampleOf_mixBlock s.dwPrev.toNat s.p[5].toNat s.inbuf wet c hk)
    have hsettled (h : s.dwPrev = s.p[5]) : dw = s.p[5].toNat := by
      show (rampAt s.dwPrev.toNat s.p[5].toNat n k).toNat = _
      rw [h, rampAt_same, Int.toNat_natCast]
    refine ⟨hy.trans (xfadeMix_eq dw x w), fun h0 h5 => ?_, fun h0 h5 => ?_⟩
    · rw [hy, hsettled (h0.trans h5.symm), h5]
      exact xfadeMix_zero _ w
    · rw [hy, hsettled (h0.trans h5.symm), h5]
      exact xfadeMix_full x w

end Sys2Proof.Machine
end

section
/-! PROOFS. One sample of the grain engine (44_grain.md R118): the grains of a pool that sound in it, what each adds, their sum, and the
silence of a pool that reads silence (44_grain.md R120). -/

namespace Sys2Proof.Machine

/-! ## What one grain adds -/

section

variable (s : State) (g : GrainSlot)

/-- The left term of a grain is its voice on channel 0. -/
theorem grainTerm_left : grainTerm s 0 g g.gainL = grainVoice s g g.phase.toNat 0 := by
  simp only [grainTerm, grainVoice, grainPosition, grainEnvelope, shr_ofNat, Nat.shiftRight_eq_div_pow, Nat.shiftLeft_eq]
  rfl

/-- The right term of a grain, from the ring the right channel reads, is its voice on channel 1. -/
theorem grainTerm_right : grainTerm s (rightSource s) g g.gainR = grainVoice s g g.phase.toNat 1 := by
  have hsrc : rightSource s = if (1 : Fin 2) = 1 ∧ s.mono = false then 1 else 0 := by
    cases hm : s.mono <;> simp [rightSource, hm]
  rw [hsrc]
  simp only [grainTerm, grainVoice, grainPosition, grainEnvelope, shr_ofNat, Nat.shiftRight_eq_div_pow, Nat.shiftLeft_eq]
  rfl

end

/-! ## What one sample sums -/

/-- A slot as it sounds in the next sample: a playing grain with its phase. -/
def GrainSlot.voice? (g : GrainSlot) : Option (GrainSlot × Nat) := if g.active then some (g, g.phase.toNat) else none

/-- Both sums run over the voices of the slots. -/
theorem grainSums_eq (s : State) (slots : List GrainSlot) :
    grainSums s slots =
      (((slots.filterMap GrainSlot.voice?).map fun v => grainVoice s v.1 v.2 0).sum,
        ((slots.filterMap GrainSlot.voice?).map fun v => grainVoice s v.1 v.2 1).sum) := by
  induction slots with
  | nil => rfl
  | cons g rest ih =>
    cases hg : g.active with
    | false => simp [grainSums, GrainSlot.voice?, hg, ih]
    | true => simp [grainSums, GrainSlot.voice?, hg, ih, grainTerm_left, grainTerm_right]

/-- A sample of the engine is the normalised, saturated sum of the voices (44_grain.md R118). -/
theorem grainFrame_channel (s : State) (slots : Vector GrainSlot Config.maxGrains) (c : Fin 2) :
    ((grainFrame s slots).channel c).toInt = grainSample s (slots.toList.filterMap GrainSlot.voice?) c := by
  have hc : c = 0 ∨ c = 1 := by omega
  rcases hc with rfl | rfl
  all_goals
    simp only [grainFrame, Frame.channel, grainSums_eq, shr_ofNat, grainSample]
    exact toInt_toHalf_sat16 _

/-! ## A block of samples -/

/-- The slots after a block: each advanced once for each sample. -/
theorem grainSynth_slot (s : State) (ni : Nat) (slots : Vector GrainSlot Config.maxGrains) (k : Fin 16) :
    (grainSynth s ni slots).1[k] = grainAdvance^[ni] slots[k] := by
  induction ni generalizing slots with
  | zero => rfl
  | succ ni ih =>
    show (grainSynth s ni (mapVector grainAdvance slots)).1[k] = grainAdvance^[ni] (grainAdvance slots[k])
    rw [ih]
    exact congrArg _ (mapVector_getElem ..)

/-- The block: sample `j` sums the slots as they stand after `j` samples. -/
theorem grainSynth_frames (s : State) (ni : Nat) (slots : Vector GrainSlot Config.maxGrains) :
    (grainSynth s ni slots).2 = (List.range ni).map fun j => grainFrame s (mapVector grainAdvance^[j] slots) := by
  induction ni generalizing slots with
  | zero => rfl
  | succ ni ih =>
    have hzero : mapVector grainAdvance^[0] slots = slots := Vector.ext fun k hk => mapVector_getElem ..
    have hsucc (j : Nat) :
        mapVector grainAdvance^[j] (mapVector grainAdvance slots) = mapVector grainAdvance^[j + 1] slots :=
      Vector.ext fun k hk => by simp
    rw [List.range_succ_eq_map, List.map_cons, List.map_map, hzero]
    show grainFrame s slots :: (grainSynth s ni (mapVector grainAdvance slots)).2 = _
    rw [ih]
    simp only [hsucc, Function.comp_def]

/-! ## Silence (44_grain.md R120) -/

/-- Between two taps that are 0 a read is 0. -/
theorem rbReadAbs_eq_zero {s : State} {i : Fin 2} {n p : Nat} (hn : s.rings[i].n.toNat = n) (htail : s.rings[i].tail[0] = 0)
    (hload : ∀ a, a < n → rbLoad s i a = 0) (hp : p < n) (frac : Nat) : rbReadAbs s i p frac = 0 := by
  have hsecond : secondTap s i p = 0 := by
    unfold secondTap
    split
    · exact hload _ (hn ▸ ‹_›)
    · rw [htail]
      rfl
  rw [rbReadAbs_eq, hsecond, hload p hp, sub_self, zero_mul]
  rfl

/-- A frame whose samples are both 0. -/
theorem Frame.eq_zero {f : Frame} (h : ∀ c : Fin 2, (f.channel c).toInt = 0) : f = ⟨0, 0⟩ := by
  have hl : f.l = 0 := BitVec.eq_of_toInt_eq (h 0)
  have hr : f.r = 0 := BitVec.eq_of_toInt_eq (h 1)
  obtain ⟨l, r⟩ := f
  rw [Frame.mk.injEq]
  exact ⟨hl, hr⟩

/-- Voices that are all 0 sum to a sample that is 0. -/
theorem grainSample_eq_zero {s : State} {c : Fin 2} (h : ∀ g phase, grainVoice s g phase c = 0) (voices : List (GrainSlot × Nat)) :
    grainSample s voices c = 0 := by
  have hsum : (voices.map fun v => grainVoice s v.1 v.2 c).sum = 0 :=
    List.sum_eq_zero fun x hx => by
      obtain ⟨v, -, rfl⟩ := List.mem_map.1 hx
      exact h v.1 v.2
  rw [grainSample, hsum, zero_mul]
  rfl

/-- Settles O58: every voice is 0, so every sample is. -/
theorem silentBuffersPlaySilence : Obligations.SilentBuffersPlaySilence := by
  unfold Obligations.SilentBuffersPlaySilence
  intro s ni hn htail0 htail1 hload0 hstereo
  have hvoice (c : Fin 2) (g : GrainSlot) (phase : Nat) : grainVoice s g phase c = 0 := by
    have hread (p frac : Nat) :
        rbReadAbs s (if c = 1 ∧ s.mono = false then 1 else 0) (p % s.rings[0].n.toNat) frac = 0 := by
      split
      · rename_i hright
        obtain ⟨hsize, hload1⟩ := hstereo hright.2
        exact rbReadAbs_eq_zero (congrArg BitVec.toNat hsize) htail1 (hsize ▸ hload1) (Nat.mod_lt _ hn) frac
      · exact rbReadAbs_eq_zero rfl htail0 hload0 (Nat.mod_lt _ hn) frac
    simp [grainVoice, hread]
  refine ⟨?_, fun hdet => ?_⟩
  · have hframe (slots : Vector GrainSlot Config.maxGrains) : grainFrame s slots = ⟨0, 0⟩ :=
      Frame.eq_zero fun c => (grainFrame_channel s slots c).trans (grainSample_eq_zero (hvoice c) _)
    show (grainSynth s ni _).2 = _
    rw [grainSynth_frames]
    simp only [hframe, List.map_const', List.length_range]
  · simp [spawnDecision, hdet, prngNext]

end Sys2Proof.Machine
end

section
/-! PROOFS. The pool of the grain engine over a block (44_grain.md R115, R116, R118): how a grain plays on, which slots are spawned into
and with which draw. -/

namespace Sys2Proof.Machine

/-! ## A grain over the samples of a block (44_grain.md R118) -/

/-- A playing grain `j` samples later: it stops at its length. -/
def GrainSlot.played (g : GrainSlot) (j : Nat) : GrainSlot :=
  { g with
    phase := BitVec.ofNat 16 (min (g.phase.toNat + j) g.len.toNat)
    active := decide (g.phase.toNat + j < g.len.toNat) }

section

variable {g : GrainSlot}

theorem GrainSlot.played_phase (g : GrainSlot) (j : Nat) : (g.played j).phase.toNat = min (g.phase.toNat + j) g.len.toNat := by
  have := g.len.isLt
  simp only [GrainSlot.played, BitVec.toNat_ofNat]
  omega

theorem GrainSlot.played_active (g : GrainSlot) (j : Nat) :
    (g.played j).active = true ↔ g.phase.toNat + j < g.len.toNat := decide_eq_true_iff

theorem GrainSlot.played_zero (ha : g.active = true) (hp : g.phase.toNat < g.len.toNat) : g.played 0 = g := by
  have hphase : BitVec.ofNat 16 (min g.phase.toNat g.len.toNat) = g.phase := by
    rw [min_eq_left hp.le, BitVec.ofNat_toNat, BitVec.setWidth_eq]
  unfold GrainSlot.played
  rw [Nat.add_zero, hphase, decide_eq_true hp, ← ha]

theorem grainAdvance_played (g : GrainSlot) (j : Nat) : grainAdvance (g.played j) = g.played (j + 1) := by
  have hphase := g.played_phase j
  by_cases hj : g.phase.toNat + j < g.len.toNat
  · rw [min_eq_left hj.le] at hphase
    have hnext : (g.played j).phase + 1 = BitVec.ofNat 16 (min (g.phase.toNat + (j + 1)) g.len.toNat) := by
      apply BitVec.eq_of_toNat_eq
      rw [BitVec.toNat_add, hphase, BitVec.toNat_ofNat, min_eq_left (by omega)]
      rfl
    rw [grainAdvance, if_pos ((g.played_active j).2 hj), hnext, hphase]
    rfl
  · have hstop : (g.played j).active = false := decide_eq_false hj
    rw [grainAdvance, if_neg (by simp [hstop])]
    unfold GrainSlot.played
    rw [min_eq_right (by omega), min_eq_right (by omega), decide_eq_false hj, decide_eq_false (by omega)]

/-- A playing grain that has not reached its length, after `j` samples. -/
theorem grainAdvance_iterate (ha : g.active = true) (hp : g.phase.toNat < g.len.toNat) (j : Nat) :
    grainAdvance^[j] g = g.played j := by
  induction j with
  | zero => exact (GrainSlot.played_zero ha hp).symm
  | succ j ih => rw [Function.iterate_succ_apply', ih, grainAdvance_played]

/-- A slot that does not play stays as it is. -/
theorem grainAdvance_iterate_idle (ha : g.active = false) (j : Nat) : grainAdvance^[j] g = g :=
  Function.iterate_fixed (show grainAdvance g = g by simp [grainAdvance, ha]) j

/-- What a grain adds depends on its phase only through the phase it is asked for. -/
theorem grainVoice_played (s : State) (g : GrainSlot) (j phase : Nat) (c : Fin 2) :
    grainVoice s (g.played j) phase c = grainVoice s g phase c := rfl

/-- A playing grain `j` samples later, as it sounds there. -/
theorem GrainSlot.voice?_played (g : GrainSlot) (j : Nat) :
    (g.played j).voice? = if g.phase.toNat + j < g.len.toNat then some (g.played j, g.phase.toNat + j) else none := by
  by_cases hj : g.phase.toNat + j < g.len.toNat
  · rw [GrainSlot.voice?, if_pos ((g.played_active j).2 hj), if_pos hj, g.played_phase, min_eq_left hj.le]
  · rw [GrainSlot.voice?, if_neg (mt (g.played_active j).1 hj), if_neg hj]

theorem GrainSlot.voice?_idle (ha : g.active = false) : g.voice? = none := if_neg (by simp [ha])

end

/-! ## Free slots (44_grain.md R116) -/

/-- The search for a free slot is the library's search for the first index. -/
theorem freeSlot_eq (k : Nat) (slots : List GrainSlot) :
    freeSlot k slots = (slots.findIdx? fun g => !g.active).map (· + k) := by
  induction slots generalizing k with
  | nil => rfl
  | cons g rest ih =>
    cases hg : g.active with
    | false => simp [freeSlot, List.findIdx?_cons, hg]
    | true =>
      simp only [freeSlot, List.findIdx?_cons, hg, ih]
      simp [Function.comp_def, Nat.add_assoc, Nat.add_comm 1]

section

variable {g : GrainPool} {j k : Nat}

/-- A full pool: every slot plays. -/
theorem active_of_freeSlot_none (h : freeSlot 0 g.slots.toList = none) (hk : k < 16) : g.slots[k].active = true := by
  rw [freeSlot_eq, Option.map_eq_none_iff, List.findIdx?_eq_none_iff] at h
  simpa using h g.slots[k] (by simp)

/-- The lowest free slot: it is free and every slot below it plays. -/
theorem freeSlot_some (h : freeSlot 0 g.slots.toList = some j) :
    ∃ hj : j < 16, g.slots[j].active = false ∧ ∀ i : Fin 16, i.val < j → g.slots[i].active = true := by
  rw [freeSlot_eq, Option.map_eq_some_iff] at h
  obtain ⟨i, hi, rfl⟩ := h
  obtain ⟨hlen, hfree, hbelow⟩ := List.findIdx?_eq_some_iff_getElem.1 hi
  exact ⟨by simpa using hlen, by simpa using hfree, fun l hl => by simpa using hbelow l hl⟩

theorem idleBelow_zero (g : GrainPool) : idleBelow g 0 = 0 := rfl

theorem idleBelow_succ (g : GrainPool) (hk : k < 16) :
    idleBelow g (k + 1) = idleBelow g k + if g.slots[k].active then 0 else 1 := by
  have hget : g.slots.toList[k]? = some g.slots[k] := by simp [hk]
  unfold idleBelow
  rw [List.take_add_one, hget, List.filter_append, List.length_append]
  cases hg : g.slots[k].active <;> simp [hg]

/-- Below a slot under which every slot plays there is no free one. -/
theorem idleBelow_eq_zero (hk : k ≤ 16) (h : ∀ i : Fin 16, i.val < k → g.slots[i].active = true) : idleBelow g k = 0 := by
  induction k with
  | zero => rfl
  | succ k ih =>
    have hlast : g.slots[k].active = true := h ⟨k, hk⟩ (Nat.lt_succ_self k)
    rw [idleBelow_succ g hk, ih (by omega) fun i hi => h i (by omega), hlast, if_pos rfl]

/-! ## Spawning (44_grain.md R116) -/

/-- The pool after one spawn into slot `j`. -/
def GrainPool.spawn (s : State) (g : GrainPool) (j : Nat) : GrainPool :=
  { g with
    prng := prngNext g.prng
    slots := g.slots.setIfInBounds j (spawnedGrain s (prngDraw (prngNext g.prng))) }

theorem spawnGrains_of_full (s : State) (count : Nat) (h : freeSlot 0 g.slots.toList = none) :
    spawnGrains s count g = g := by
  cases count with
  | zero => rfl
  | succ count => simp only [spawnGrains, h]

theorem spawnGrains_succ (s : State) (count : Nat) (h : freeSlot 0 g.slots.toList = some j) :
    spawnGrains s (count + 1) g = spawnGrains s count (g.spawn s j) := by
  simp only [spawnGrains, h, GrainPool.spawn]

theorem GrainPool.spawn_slot (s : State) (g : GrainPool) (hk : k < 16) :
    (g.spawn s j).slots[k] = if j = k then spawnedGrain s (prngDraw (prngNext g.prng)) else g.slots[k] :=
  Vector.getElem_setIfInBounds hk

@[simp] theorem GrainPool.spawn_prng (s : State) (g : GrainPool) (j : Nat) : (g.spawn s j).prng = prngNext g.prng := by
  rw [GrainPool.spawn]

@[simp] theorem GrainPool.spawn_spawnCtr (s : State) (g : GrainPool) (j : Nat) : (g.spawn s j).spawnCtr = g.spawnCtr := by
  rw [GrainPool.spawn]

@[simp] theorem spawnedGrain_active (s : State) (rp : Nat) : (spawnedGrain s rp).active = true := rfl

theorem spawnedGrain_phase (s : State) (rp : Nat) : (spawnedGrain s rp).phase.toNat = 0 := rfl

/-- A spawn takes one free slot from those below each later slot. -/
theorem idleBelow_spawn (s : State) (hj : j < 16) (hfree : g.slots[j].active = false) (hk : k ≤ 16) :
    idleBelow (g.spawn s j) k + (if j < k then 1 else 0) = idleBelow g k := by
  induction k with
  | zero => rfl
  | succ k ih =>
    have ih := ih (by omega)
    rw [idleBelow_succ _ hk, idleBelow_succ _ hk, GrainPool.spawn_slot s g hk]
    rcases lt_trichotomy j k with hlt | rfl | hgt
    · rw [if_pos hlt] at ih
      rw [if_neg hlt.ne, if_pos (hlt.trans k.lt_succ_self), ← ih]
      omega
    · rw [if_neg (lt_irrefl j)] at ih
      rw [if_pos rfl, if_pos j.lt_succ_self, spawnedGrain_active, hfree, ← ih]
      rfl
    · rw [if_neg hgt.not_gt] at ih
      rw [if_neg hgt.ne', if_neg (Nat.not_lt.2 hgt), ← ih]
      rfl

/-- The generator after spawning: one draw for each grain, until the pool is full. -/
theorem spawnGrains_prng (s : State) (count : Nat) (g : GrainPool) :
    (spawnGrains s count g).prng = prngNext^[min count (idleBelow g 16)] g.prng := by
  induction count generalizing g with
  | zero => rw [Nat.zero_min, Function.iterate_zero_apply, spawnGrains]
  | succ count ih =>
    cases hf : freeSlot 0 g.slots.toList with
    | none =>
      rw [spawnGrains_of_full s _ hf, idleBelow_eq_zero le_rfl fun i _ => active_of_freeSlot_none hf i.isLt, Nat.min_zero,
        Function.iterate_zero_apply]
    | some j =>
      obtain ⟨hj, hfree, -⟩ := freeSlot_some hf
      have hidle := idleBelow_spawn s hj hfree le_rfl
      rw [if_pos hj] at hidle
      rw [spawnGrains_succ s _ hf, ih, ← hidle, Nat.add_min_add_right, Function.iterate_succ_apply, GrainPool.spawn_prng]

theorem spawnGrains_spawnCtr (s : State) (count : Nat) (g : GrainPool) : (spawnGrains s count g).spawnCtr = g.spawnCtr := by
  induction count generalizing g with
  | zero => rfl
  | succ count ih =>
    cases hf : freeSlot 0 g.slots.toList with
    | none => rw [spawnGrains_of_full s _ hf]
    | some j => rw [spawnGrains_succ s _ hf, ih, GrainPool.spawn_spawnCtr]

/-- The slots after spawning: the first `count` free ones, lowest first, hold a grain each with its own draw. -/
theorem spawnGrains_slot (s : State) (count : Nat) (g : GrainPool) (hk : k < 16) :
    (spawnGrains s count g).slots[k] =
      if g.slots[k].active = false ∧ idleBelow g k < count then
        spawnedGrain s (prngDraw (prngNext^[idleBelow g k + 1] g.prng))
      else g.slots[k] := by
  induction count generalizing g with
  | zero => exact (if_neg fun h => Nat.not_lt_zero _ h.2).symm
  | succ count ih =>
    cases hf : freeSlot 0 g.slots.toList with
    | none =>
      rw [spawnGrains_of_full s _ hf, if_neg (by simp [active_of_freeSlot_none hf hk])]
    | some j =>
      obtain ⟨hj, hfree, hbelow⟩ := freeSlot_some hf
      have hidle := idleBelow_spawn s hj hfree hk.le
      rw [spawnGrains_succ s _ hf, ih, GrainPool.spawn_slot s g hk]
      rcases lt_trichotomy k j with hlt | rfl | hgt
      · have hactive : g.slots[k].active = true := hbelow ⟨k, hk⟩ hlt
        rw [if_neg hlt.ne', if_neg (by simp [hactive]), if_neg (by simp [hactive])]
      · have hnone : idleBelow g k = 0 := idleBelow_eq_zero hk.le hbelow
        rw [if_pos rfl, spawnedGrain_active, if_neg (by simp), if_pos ⟨hfree, by omega⟩, hnone, zero_add,
          Function.iterate_one]
      · rw [if_pos hgt] at hidle
        rw [if_neg hgt.ne, ← hidle, GrainPool.spawn_prng, Function.iterate_succ_apply prngNext (_ + 1)]
        simp only [Nat.add_lt_add_iff_right]

end

end Sys2Proof.Machine
end

section
/-! PROOFS. A block of the grain engine (44_grain.md R114 to R119): the spawn decision, the registers of a spawned grain, the pool and the
samples the engine plays. -/

namespace Sys2Proof.Machine

/-! ## The spawn decision (44_grain.md R115) -/

/-- The draws a spawn decision takes: one when it is random. -/
def decisionDraws (s : State) : Nat := if s.drv.det then 0 else 1

section

variable (s : State) (ni : Nat)

theorem spawnDecision_prng : (spawnDecision s ni).prng = prngNext^[decisionDraws s] s.grains.prng := by
  cases hd : s.drv.det with
  | false => simp only [spawnDecision, decisionDraws, hd, Bool.false_eq_true, if_false, Function.iterate_one]
  | true => simp only [spawnDecision, decisionDraws, hd, if_true, Function.iterate_zero_apply]

/-- The grains due in the block before the trigger and the guard. -/
def grainsDue (s : State) (ni : Nat) : Nat :=
  let period := spawnPeriod (grainLength s) s.drv.overlap.toNat
  let q := ni * 65536 / period
  min (if s.drv.det then (s.grains.spawnCtr.toNat + ni) / period
    else q / 65536 + (if (prngNext s.grains.prng).toNat / 65536 < q % 65536 then 1 else 0)) 16

theorem spawnDecision_count_eq :
    (spawnDecision s ni).count =
      if grainLength s < 16 then 0 else if s.trigger then max (grainsDue s ni) 1 else grainsDue s ni := by
  cases hd : s.drv.det with
  | false =>
    simp only [spawnDecision, grainsDue, prngDraw, hd, Bool.false_eq_true, if_false, Nat.shiftRight_eq_div_pow]
    rfl
  | true =>
    simp only [spawnDecision, grainsDue, hd, if_true]
    rfl

/-- A period is at most `2^30`, so the counter modulo it fits its register. -/
theorem spawnPeriod_bounds (overlap : Nat) :
    0 < spawnPeriod (grainLength s) overlap ∧ spawnPeriod (grainLength s) overlap ≤ 2 ^ 30 := by
  have hlen : grainLength s * 32768 ≤ 2 ^ 30 := by
    have := grainLength_le s
    omega
  have hdiv : grainLength s * 32768 / (overlap : Int) ≤ 2 ^ 30 := by
    rcases le_total 0 (grainLength s * 32768) with h | h
    · exact (Int.ediv_le_self _ h).trans hlen
    · rcases Nat.eq_zero_or_pos overlap with rfl | hpos
      · simp
      · exact (Int.ediv_nonpos_of_nonpos_of_neg h (by omega)).trans (by norm_num)
  unfold spawnPeriod
  omega

theorem spawnDecision_ctr :
    (spawnDecision s ni).ctr.toNat =
      if s.drv.det then (s.grains.spawnCtr.toNat + ni) % spawnPeriod (grainLength s) s.drv.overlap.toNat else 0 := by
  cases hd : s.drv.det with
  | false =>
    simp only [spawnDecision, hd, Bool.false_eq_true, if_false]
    rfl
  | true =>
    obtain ⟨hpos, hle⟩ := spawnPeriod_bounds s s.drv.overlap.toNat
    have hmod := Nat.mod_lt (s.grains.spawnCtr.toNat + ni) hpos
    simp only [spawnDecision, hd, if_true, BitVec.toNat_ofNat]
    exact Nat.mod_eq_of_lt (by omega)

end

/-! ## The registers of a spawned grain (44_grain.md R116) -/

/-- How many whole source samples before the newest a spawned grain starts. -/
def grainBack (s : State) : Int :=
  let lsrc := grainLength s * grainRatio s / 65536 + 1
  lsrc + 2 + (s.p[0].toNat : Int) * ((s.rings[0].n.toNat : Int) - 4 - 2 * lsrc - grainLength s) / 32768

/-- The pan of the grain with pan draw `rp`. -/
def grainPan (s : State) (rp : Nat) : Int := 16384 + ((rp : Int) - 32768) * (s.p[6].toNat : Int) / 65536

section

variable {s : State}

theorem spawnedGrain_startHi (hn : 0 < s.rings[0].n.toNat) (rp : Nat) :
    ((spawnedGrain s rp).startHi.toNat : Int) =
      ((s.rings[0].wcur.toNat : Int) - 1 - grainBack s) % (s.rings[0].n.toNat : Int) := by
  have hlt := s.rings[0].n.isLt
  simp only [spawnedGrain, grainBack, BitVec.toNat_ofInt, shr_ofNat]
  norm_num
  generalize (s.rings[0].wcur.toNat : Int) - 1 - _ = x
  have h0 := Int.emod_nonneg x (show (s.rings[0].n.toNat : Int) ≠ 0 by omega)
  have h1 := Int.emod_lt_of_pos x (show (0 : Int) < s.rings[0].n.toNat by omega)
  omega

theorem spawnedGrain_len (hl : 16 ≤ grainLength s) (rp : Nat) : ((spawnedGrain s rp).len.toNat : Int) = grainLength s := by
  have hle := grainLength_le s
  simp only [spawnedGrain, BitVec.toNat_ofInt]
  omega

theorem spawnedGrain_ratio (h : ParamsOk s) (rp : Nat) : (spawnedGrain s rp).ratio.toNat = grainRatio s := by
  have hle := (pitchRatio_range h.pitch.1 h.pitch.2).2
  simp only [spawnedGrain, BitVec.toNat_ofInt]
  unfold grainRatio
  omega

theorem grainPan_range (h : ParamsOk s) {rp : Nat} (hr : rp < 65536) : 0 ≤ grainPan s rp ∧ grainPan s rp ≤ 32767 := by
  have hwidth : s.p[6].toNat ≤ 32768 := h.unit 6 (by decide) (by decide)
  obtain ⟨hlo, hhi⟩ := pan_range hr hwidth
  unfold grainPan
  push_cast at hlo hhi ⊢
  omega

theorem spawnedGrain_gainL (h : ParamsOk s) {rp : Nat} (hr : rp < 65536) :
    ((spawnedGrain s rp).gainL.toNat : Int) = min 32768 (2 * (32768 - grainPan s rp)) := by
  obtain ⟨hlo, hhi⟩ := grainPan_range h hr
  have hgain : (spawnedGrain s rp).gainL = BitVec.ofInt 16 (min 32768 (2 * (32768 - grainPan s rp))) := by
    simp only [spawnedGrain, grainPan, shr_ofNat]
    rfl
  rw [hgain, BitVec.toNat_ofInt]
  omega

theorem spawnedGrain_gainR (h : ParamsOk s) {rp : Nat} (hr : rp < 65536) :
    ((spawnedGrain s rp).gainR.toNat : Int) = min 32768 (2 * grainPan s rp) := by
  obtain ⟨hlo, hhi⟩ := grainPan_range h hr
  have hgain : (spawnedGrain s rp).gainR = BitVec.ofInt 16 (min 32768 (2 * grainPan s rp)) := by
    simp only [spawnedGrain, grainPan, shr_ofNat]
    rfl
  rw [hgain, BitVec.toNat_ofInt]
  omega

/-- The registers of a spawned grain (44_grain.md R116). -/
theorem spawnedGrain_registers (h : ParamsOk s) (hn : 0 < s.rings[0].n.toNat) (hl : 16 ≤ grainLength s) {rp : Nat}
    (hr : rp < 65536) :
    ((spawnedGrain s rp).startHi.toNat : Int) =
        ((s.rings[0].wcur.toNat : Int) - 1 - grainBack s) % (s.rings[0].n.toNat : Int) ∧
      (spawnedGrain s rp).startLo = 0 ∧ ((spawnedGrain s rp).len.toNat : Int) = grainLength s ∧
      ((spawnedGrain s rp).ratio.toNat : Int) = grainRatio s ∧
      ((spawnedGrain s rp).gainL.toNat : Int) = min 32768 (2 * (32768 - grainPan s rp)) ∧
      ((spawnedGrain s rp).gainR.toNat : Int) = min 32768 (2 * grainPan s rp) :=
  ⟨spawnedGrain_startHi hn rp, rfl, spawnedGrain_len hl rp, congrArg Nat.cast (spawnedGrain_ratio h rp),
    spawnedGrain_gainL h hr, spawnedGrain_gainR h hr⟩

end

/-! ## A block of the engine (44_grain.md R119) -/

/-- The pool after the spawn decision and the spawning of a block. -/
def spawnedPool (s : State) (ni : Nat) : GrainPool :=
  spawnGrains s (spawnDecision s ni).count
    { s.grains with prng := (spawnDecision s ni).prng, spawnCtr := (spawnDecision s ni).ctr }

/-- The pan draw of the grain spawned into slot `k`: the free slots below it take the draws before. -/
def panDraw (s : State) (k : Nat) : Nat := prngDraw (prngNext^[decisionDraws s + idleBelow s.grains k + 1] s.grains.prng)

theorem panDraw_lt (s : State) (k : Nat) : panDraw s k < 65536 := by
  unfold panDraw prngDraw
  generalize prngNext^[_] _ = x
  have := x.isLt
  rw [Nat.shiftRight_eq_div_pow]
  omega

section

variable (s : State) (ni : Nat)

theorem grainPlay_eq :
    grainPlay s ni =
      ({ spawnedPool s ni with slots := (grainSynth s ni (spawnedPool s ni).slots).1 },
        (grainSynth s ni (spawnedPool s ni).slots).2) := rfl

theorem grainPlay_prng :
    (grainPlay s ni).1.prng =
      prngNext^[decisionDraws s + min (spawnDecision s ni).count (idleBelow s.grains 16)] s.grains.prng := by
  rw [Nat.add_comm, Function.iterate_add_apply, ← spawnDecision_prng s ni]
  exact spawnGrains_prng s _ _

theorem grainPlay_spawnCtr : (grainPlay s ni).1.spawnCtr = (spawnDecision s ni).ctr := spawnGrains_spawnCtr s _ _

theorem grainPlay_slot (k : Fin 16) : (grainPlay s ni).1.slots[k] = grainAdvance^[ni] (spawnedPool s ni).slots[k] :=
  grainSynth_slot s ni _ k

theorem spawnedPool_slot (k : Fin 16) :
    (spawnedPool s ni).slots[k] =
      if s.grains.slots[k].active = false ∧ idleBelow s.grains k.val < (spawnDecision s ni).count then
        spawnedGrain s (panDraw s k.val)
      else s.grains.slots[k] := by
  have hdraw : panDraw s k.val = prngDraw (prngNext^[idleBelow s.grains k.val + 1] (spawnDecision s ni).prng) := by
    rw [panDraw, spawnDecision_prng s ni, ← Function.iterate_add_apply, Nat.add_comm _ (decisionDraws s), ← Nat.add_assoc]
  rw [hdraw]
  exact spawnGrains_slot s _ _ k.isLt

end

/-! ## A slot over a block (44_grain.md R116, R118) -/

section

variable {s : State} {ni : Nat} {k : Fin 16}

/-- A slot that plays before the block plays on. -/
theorem grainPlay_slot_playing (hok : GrainOk s.grains.slots[k]) (ha : s.grains.slots[k].active = true) :
    (spawnedPool s ni).slots[k] = s.grains.slots[k] ∧ (grainPlay s ni).1.slots[k] = s.grains.slots[k].played ni := by
  have hslot : (spawnedPool s ni).slots[k] = s.grains.slots[k] := by
    rw [spawnedPool_slot, if_neg fun h => Bool.noConfusion (h.1.symm.trans ha)]
  obtain ⟨-, -, hphase, -⟩ := hok ha
  exact ⟨hslot, by rw [grainPlay_slot, hslot, grainAdvance_iterate ha hphase]⟩

/-- A spawned grain is long enough to sound. -/
theorem spawnedGrain_phase_lt (hl : Config.grainMinLen ≤ grainLength s) (rp : Nat) :
    (spawnedGrain s rp).phase.toNat < (spawnedGrain s rp).len.toNat := by
  have hlen := spawnedGrain_len hl rp
  have hmin : (16 : Int) ≤ grainLength s := hl
  rw [spawnedGrain_phase]
  omega

/-- A free slot with fewer free slots below it than grains to spawn starts a grain, which plays from its first sample. -/
theorem grainPlay_slot_spawned (ha : s.grains.slots[k].active = false)
    (hc : idleBelow s.grains k.val < (spawnDecision s ni).count) :
    (spawnedPool s ni).slots[k] = spawnedGrain s (panDraw s k.val) ∧
      (grainPlay s ni).1.slots[k] = (spawnedGrain s (panDraw s k.val)).played ni := by
  have hslot : (spawnedPool s ni).slots[k] = spawnedGrain s (panDraw s k.val) := by
    rw [spawnedPool_slot, if_pos ⟨ha, hc⟩]
  have hphase := spawnedGrain_phase_lt (spawnDecision_count (Nat.ne_zero_of_lt hc)) (panDraw s k.val)
  exact ⟨hslot, by rw [grainPlay_slot, hslot, grainAdvance_iterate (spawnedGrain_active s _) hphase]⟩

/-- Every other slot stays free. -/
theorem grainPlay_slot_idle (ha : s.grains.slots[k].active = false)
    (hc : ¬ idleBelow s.grains k.val < (spawnDecision s ni).count) :
    (spawnedPool s ni).slots[k] = s.grains.slots[k] ∧ (grainPlay s ni).1.slots[k] = s.grains.slots[k] := by
  have hslot : (spawnedPool s ni).slots[k] = s.grains.slots[k] := by
    rw [spawnedPool_slot, if_neg fun h => hc h.2]
  exact ⟨hslot, by rw [grainPlay_slot, hslot, grainAdvance_iterate_idle ha]⟩

end

/-! ## The samples of a block (44_grain.md R118) -/

section

variable {s : State} {ni j : Nat} {c : Fin 2}

/-- The voices of a pool, slot by slot. -/
theorem filterMap_toList (slots : Vector GrainSlot Config.maxGrains) (f : GrainSlot → Option (GrainSlot × Nat)) :
    slots.toList.filterMap f = (List.finRange 16).filterMap fun k => f slots[k] := by
  have hlist : slots.toList = (List.finRange 16).map fun k => slots[k] := by
    rw [← List.ofFn_eq_map, ← Vector.toList_ofFn]
    exact congrArg Vector.toList Vector.ofFn_getElem.symm
  rw [hlist, List.filterMap_map]
  rfl

theorem sampleOf_grainPlay (s : State) (hj : j < ni) (c : Fin 2) :
    sampleOf (grainPlay s ni).2 c j =
      grainSample s ((List.finRange 16).filterMap fun k => (grainAdvance^[j] (spawnedPool s ni).slots[k]).voice?) c := by
  have hframe : (grainPlay s ni).2.getD j ⟨0, 0⟩ = grainFrame s (mapVector grainAdvance^[j] (spawnedPool s ni).slots) := by
    rw [grainPlay_eq, grainSynth_frames]
    simp [hj]
  rw [sampleOf, hframe, grainFrame_channel, filterMap_toList]
  simp only [Fin.getElem_fin, mapVector_getElem]

/-- The voice of slot `k` in sample `j`, from the slot as the block leaves it: a grain that plays or is spawned, until its length. -/
def blockVoice? (s : State) (ni j : Nat) (k : Fin 16) : Option (GrainSlot × Nat) :=
  let g := s.grains.slots[k]
  let g' := (grainPlay s ni).1.slots[k]
  let phase := (if g.active then g.phase.toNat else 0) + j
  if (g.active = true ∨ idleBelow s.grains k.val < (spawnDecision s ni).count) ∧ phase < g'.len.toNat then some (g', phase)
  else none

/-- A grain adds to sample `j` what it adds as the block leaves it, asked for its phase there. -/
theorem voice?_map_played {g : GrainSlot} (ha : g.active = true) (hp : g.phase.toNat < g.len.toNat) (ni : Nat) :
    ((grainAdvance^[j] g).voice?).map (fun v => grainVoice s v.1 v.2 c) =
      (if g.phase.toNat + j < (g.played ni).len.toNat then some (g.played ni, g.phase.toNat + j) else none).map
        fun v => grainVoice s v.1 v.2 c := by
  rw [grainAdvance_iterate ha hp, GrainSlot.voice?_played, show (g.played ni).len = g.len from rfl]
  split
  · simp only [Option.map_some, grainVoice_played]
  · rfl

/-- A slot adds to sample `j` what its voice of the block adds. -/
theorem voice?_map_blockVoice? {k : Fin 16} (hok : GrainOk s.grains.slots[k]) :
    ((grainAdvance^[j] (spawnedPool s ni).slots[k]).voice?).map (fun v => grainVoice s v.1 v.2 c) =
      (blockVoice? s ni j k).map fun v => grainVoice s v.1 v.2 c := by
  unfold blockVoice?
  dsimp only
  cases ha : s.grains.slots[k].active with
  | true =>
    obtain ⟨hslot, hafter⟩ := grainPlay_slot_playing (ni := ni) hok ha
    obtain ⟨-, -, hphase, -⟩ := hok ha
    rw [hslot, hafter, voice?_map_played ha hphase ni]
    simp
  | false =>
    by_cases hc : idleBelow s.grains k.val < (spawnDecision s ni).count
    · obtain ⟨hslot, hafter⟩ := grainPlay_slot_spawned ha hc
      have hphase := spawnedGrain_phase_lt (spawnDecision_count (Nat.ne_zero_of_lt hc)) (panDraw s k.val)
      rw [hslot, hafter, voice?_map_played (spawnedGrain_active s _) hphase ni, spawnedGrain_phase]
      simp [hc]
    · obtain ⟨hslot, hafter⟩ := grainPlay_slot_idle ha hc
      rw [hslot, hafter, grainAdvance_iterate_idle ha, GrainSlot.voice?_idle ha, if_neg (by simp [hc])]

/-- A sample of the block is the sum of the voices of the block. -/
theorem sampleOf_grainPlay_blockVoices (hok : ∀ k : Fin 16, GrainOk s.grains.slots[k]) (hj : j < ni) :
    sampleOf (grainPlay s ni).2 c j = grainSample s ((List.finRange 16).filterMap (blockVoice? s ni j)) c := by
  rw [sampleOf_grainPlay s hj]
  simp only [grainSample, List.map_filterMap, voice?_map_blockVoice? (hok _)]

end

end Sys2Proof.Machine
end

section
/-! PROOFS. A `PROCESS` in Granular mode (48_sequencer.md R162 to R164): the engine runs on the state after recording, and the state it
leaves reads the same samples, so the registers and the samples of 44_grain.md R112 to R119 follow from a block of the engine. -/

namespace Sys2Proof.Machine

/-! ## Samples seen from two states -/

/-- Two states whose grains sound alike: the same arenas, ring buffers, channels and derived parameters. -/
structure SameSound (r t : State) : Prop where
  large : t.large = r.large
  small : t.small = r.small
  rings : t.rings = r.rings
  quality : t.quality = r.quality
  drv : t.drv = r.drv

section

variable {r t : State}

theorem SameSound.rbReadAbs_eq (h : SameSound r t) (i : Fin 2) (p frac : Nat) : rbReadAbs t i p frac = rbReadAbs r i p frac := by
  have hload (a : Nat) : rbLoad t i a = rbLoad r i a :=
    rbLoad_congr (by rw [h.rings]) fun x _ => by
      unfold State.byte? State.arena
      rw [h.large, h.small]
  simp only [Machine.rbReadAbs_eq, secondTap, hload, h.rings]

theorem SameSound.grainVoice_eq (h : SameSound r t) (g : GrainSlot) (phase : Nat) (c : Fin 2) :
    grainVoice t g phase c = grainVoice r g phase c := by
  simp only [grainVoice, h.rbReadAbs_eq, State.mono_congr h.quality, h.rings, h.drv]

theorem SameSound.grainSample_eq (h : SameSound r t) (voices : List (GrainSlot × Nat)) (c : Fin 2) :
    grainSample t voices c = grainSample r voices c := by
  simp only [grainSample, h.grainVoice_eq, h.drv]

end

/-! ## The engine in a `PROCESS` (48_sequencer.md R164) -/

/-- The state the engine of a `PROCESS` runs on: the one after recording. -/
def engineState (s : State) : State := recordStage (processInput s).1 (processInput s).2

section

variable (s : State)

/-- Steps 3 to 6b leave what the engine's registers depend on, but for the derived parameters. -/
theorem engineState_eq :
    engineState s =
      { s with
        freezeLp := freezeFollow s.frozen s.freezeLp
        svfs := (processInput s).1.svfs
        drv := derived { s with freezeLp := freezeFollow s.frozen s.freezeLp }
        large := (engineState s).large
        small := (engineState s).small
        rings := (engineState s).rings } := by
  have hrec : ∃ large small rings, engineState s =
      { (processInput s).1 with large := large, small := small, rings := rings } :=
    ⟨_, _, _, recordStage_eq (processInput s).1 (processInput s).2⟩
  obtain ⟨large, small, rings, hrec⟩ := hrec
  rw [processInput_eq] at hrec
  rw [hrec]

theorem engineState_p : (engineState s).p = s.p := by rw [engineState_eq]

theorem engineState_grains : (engineState s).grains = s.grains := by rw [engineState_eq]

theorem engineState_internalLength : (engineState s).internalLength = s.internalLength := by
  rw [engineState_eq]
  rfl

theorem paramsOk_engineState (h : ParamsOk s) : ParamsOk (engineState s) := by
  rw [engineState_eq]
  exact ⟨h.unit, h.pitch, h.flags, freezeFollow_le _ h.freezeLp, h.dwPrev⟩

/-- Recording keeps the size of the ring buffer. -/
theorem engineState_size : (engineState s).rings[0].n = s.rings[0].n := by
  obtain ⟨u, h0, h1⟩ := recordStage_written (processInput s).1 (processInput s).2
  have hrings : (processInput s).1.rings = s.rings := by rw [processInput_eq]
  calc (engineState s).rings[0].n = u.rings[0].n := congrArg Ring.n (h1.ring_other (j := 0) (by decide))
    _ = (processInput s).1.rings[0].n := h0.sameRegion.n
    _ = s.rings[0].n := by rw [hrings]

/-- The samples and the derived parameters stand as the engine found them. -/
theorem sameSound_processBlock : SameSound (engineState s) (processBlock s) where
  large := (congrArg State.large (processBlock_eq s)).trans rfl
  small := (congrArg State.small (processBlock_eq s)).trans rfl
  rings := (congrArg State.rings (processBlock_eq s)).trans rfl
  quality := by rw [processBlock_eq, engineState_eq]
  drv := by rw [processBlock_eq, engineState_eq]

variable {s}

/-- In Granular mode step 6c is a block of the grain engine. -/
theorem playStage_granular {r : State} (hm : r.mode = .granular) (x : List Frame) :
    playStage r x = ({ r with grains := (grainPlay r r.internalLength).1 }, (grainPlay r r.internalLength).2) := by
  unfold playStage
  rw [hm]

theorem playStage_engineState (hm : s.mode = .granular) :
    (playStage (engineState s) (processInput s).2).1.grains = (grainPlay (engineState s) s.internalLength).1 ∧
      (playStage (engineState s) (processInput s).2).2 = (grainPlay (engineState s) s.internalLength).2 := by
  have hmode : (engineState s).mode = .granular := by rw [engineState_eq]; exact hm
  rw [playStage_granular hmode, engineState_internalLength]
  exact ⟨rfl, rfl⟩

theorem processBlock_grains (hm : s.mode = .granular) :
    (processBlock s).grains = (grainPlay (engineState s) s.internalLength).1 := by
  rw [← (playStage_engineState hm).1]
  unfold processBlock
  dsimp only
  rw [processEffects_eq]
  unfold processPlay
  rw [upsampleStage_eq]
  rfl

theorem engineBlock_eq (hm : s.mode = .granular) : engineBlock s = (grainPlay (engineState s) s.internalLength).2 :=
  (playStage_engineState hm).2

end

/-- What a `PROCESS` in Granular mode from `s` to `t` says of the engine: it runs on the state `r`. -/
structure GranularRun (s r t : State) : Prop where
  params : r.p = s.p
  paramsOk : ParamsOk s → ParamsOk r
  size : r.rings[0].n = s.rings[0].n
  before : r.grains = s.grains
  after : t.grains = (grainPlay r s.internalLength).1
  block : engineBlock s = (grainPlay r s.internalLength).2
  sound : SameSound r t

theorem granularRun_processBlock {s : State} (hm : s.mode = .granular) : GranularRun s (engineState s) (processBlock s) where
  params := engineState_p s
  paramsOk := paramsOk_engineState s
  size := engineState_size s
  before := engineState_grains s
  after := processBlock_grains hm
  block := engineBlock_eq hm
  sound := sameSound_processBlock s

/-- The response and the count of a command are not the engine's. -/
theorem GranularRun.completed {s r u : State} (h : GranularRun s r u) :
    GranularRun s r { u with resp := none, cmdcnt := u.cmdcnt + 1 } := by
  obtain ⟨params, paramsOk, size, before, after, block, ⟨large, small, rings, quality, drv⟩⟩ := h
  exact ⟨params, paramsOk, size, before, after, block, ⟨large, small, rings, quality, drv⟩⟩

/-- A `PROCESS` in Granular mode that passes its gate runs a block of the engine. -/
theorem exec_process_granular {s : State} {size : BitVec 16} (hf : s.fault = false) (hi : s.inited = true) (hb : s.bypass = false)
    (hs : s.silence = false) (hst : stable s) (hsize : size.toNat = s.blockSize) (hm : s.mode = .granular) :
    ∃ r t, exec (.process size) s = .next t ∧ GranularRun s r t :=
  ⟨engineState s, _, exec_process_of_gate_open hf hi hb hs hst hsize, (granularRun_processBlock hm).completed⟩

/-- The statement's generator is the model's. -/
theorem repeat_prngNext (n : Nat) (x : BitVec 32) :
    Nat.repeat (fun x => x * 1664525 + 1013904223) n x = prngNext^[n] x := by
  induction n with
  | zero => rfl
  | succ n ih => rw [Function.iterate_succ_apply', ← ih, Nat.repeat, prngNext]

/-- Settles O60: the engine runs on the state after recording, so its block gives the counter, the generator, the samples and every
slot, and each value the statement names is the engine's. -/
theorem processWritesTheGrainRegisters : Obligations.ProcessWritesTheGrainRegisters := by
  unfold Obligations.ProcessWritesTheGrainRegisters
  intro s size hinv hf hi hb hs hst hsize hm
  obtain ⟨r, t, hexec, hrun⟩ := exec_process_granular hf hi hb hs hst hsize hm
  obtain ⟨hp, hparams, hn, hg, hplay, hblock, hsound⟩ := hrun
  have hparams := hparams hinv.params
  have hpos : 0 < r.rings[0].n.toNat := by
    obtain ⟨-, -, hleast⟩ := hinv.ready.left hi hst.1
    rw [hn]
    exact Nat.lt_of_lt_of_le (by decide) hleast
  have hok (k : Fin 16) : GrainOk r.grains.slots[k] := by
    rw [hg]
    exact hinv.grains k
  have hdrv : r.drv = t.drv := hsound.drv.symm
  refine ⟨t, hexec, ?_⟩
  intro next ni n ratio len period ctr q draws due count lsrc back
  have hni : s.internalLength = ni := rfl
  rw [hni] at hplay hblock
  have hratio : (grainRatio r : Int) = ratio := by simp only [grainRatio, hp, ratio]
  have hlen : grainLength r = len := by
    simp only [grainLength, hratio, hp, hn]
    rfl
  have hperiod : spawnPeriod (grainLength r) t.drv.overlap.toNat = period := by rw [hlen]; rfl
  have hdraws : decisionDraws r = draws := by rw [decisionDraws, hdrv]
  have hdue : grainsDue r ni = due := by
    simp only [grainsDue, hdrv, hperiod, hg]
    rfl
  have hcount : (spawnDecision r ni).count = count := by
    rw [spawnDecision_count_eq, hlen, hdue, State.trigger, hp]
  have hrep (m : Nat) (x : BitVec 32) : Nat.repeat next m x = prngNext^[m] x := repeat_prngNext m x
  have hback : grainBack r = back := by
    simp only [grainBack, hlen, hratio, hp, hn]
    rfl
  refine ⟨?_, ?_, ?_, ?_⟩
  · rw [hplay, grainPlay_spawnCtr, spawnDecision_ctr, hdrv, hperiod, hg]
  · rw [hplay, hrep, grainPlay_prng, hdraws, hcount, hg]
  · intro j c hj
    rw [hblock, sampleOf_grainPlay_blockVoices hok hj, ← hsound.grainSample_eq]
    unfold blockVoice?
    rw [hcount, hg, ← hplay]
  · intro k g g'
    have hbefore : r.grains.slots[k] = g := by rw [hg]
    have hafter : g' = (grainPlay r ni).1.slots[k] := by rw [← hplay]
    clear_value g g'
    subst hbefore
    rw [← hcount, ← hg]
    cases ha : r.grains.slots[k].active with
    | true =>
      rw [(grainPlay_slot_playing (hok k) ha).2] at hafter
      subst hafter
      exact ⟨rfl, GrainSlot.played_phase _ ni, GrainSlot.played_active _ ni⟩
    | false =>
      rw [if_neg Bool.false_ne_true]
      by_cases hc : idleBelow r.grains k.val < (spawnDecision r ni).count
      · rw [(grainPlay_slot_spawned ha hc).2] at hafter
        rw [if_pos hc]
        subst hafter
        intro draw pan
        have hdraw : panDraw r k.val = draw := by
          rw [panDraw, hdraws, ← hrep, prngDraw, Nat.shiftRight_eq_div_pow]
        have hpan : grainPan r (panDraw r k.val) = pan := by rw [grainPan, hdraw, hp]
        obtain ⟨hstart, hlo, hl, hrt, hleft, hright⟩ :=
          spawnedGrain_registers hparams hpos (spawnDecision_count (Nat.ne_zero_of_lt hc)) (panDraw_lt r k.val)
        rw [hback, hn] at hstart
        rw [hpan] at hleft hright
        refine ⟨?_, hlo, hl.trans hlen, hrt.trans hratio, hleft, hright, ?_, ?_⟩
        · rw [hsound.rings]
          exact hstart
        · rw [GrainSlot.played_phase, spawnedGrain_phase, Nat.cast_min, hl, hlen, Nat.zero_add]
        · rw [GrainSlot.played_active, spawnedGrain_phase, ← hlen, ← hl, Nat.zero_add, Nat.cast_lt]
      · rw [(grainPlay_slot_idle ha hc).2] at hafter
        rw [if_neg hc]
        exact hafter

end Sys2Proof.Machine
end

section
/-! PROOFS. The stretch search (45_wsola.md R126 to R128): every step keeps its registers in order, and a posted search scores its
candidates in turn and keeps the first of the greatest score. -/

namespace Sys2Proof.Machine

/-- Settles O13, by the induction over a step: the commands that write the search registers are those of `Completes.searchOk`. -/
theorem stepKeepsSearchInvariants : Obligations.StepKeepsSearchInvariants := by
  unfold Obligations.StepKeepsSearchInvariants
  intro s t h
  exact step_keeps (P := fun s => SearchOk s.search) (fun _ _ _ _ _ _ _ _ _ _ h => h) (fun _ => searchOk_idle)
    (fun _ _ _ h hc => hc.searchOk h) h

/-! ## The best candidate so far (45_wsola.md R127) -/

/-- Of the candidates below `candIdx`, the registers hold the first of the greatest score; before the first candidate they hold
index 0 and say nothing about scores. -/
structure KeepsBest (score : Half → Word) (w : Search) : Prop where
  offset : w.bestOffset.toNat < max 1 w.candIdx.toNat
  scored : 0 < w.candIdx.toNat → w.bestScore = score w.bestOffset
  greatest : ∀ j : Half, j.toNat < w.candIdx.toNat → (score j).toInt ≤ w.bestScore.toInt
  first : ∀ j : Half, j.toNat < w.bestOffset.toNat → (score j).toInt < w.bestScore.toInt

section

variable {score : Half → Word} {w : Search}

theorem KeepsBest.offset_lt (h : KeepsBest score w) (hpos : 0 < w.candIdx.toNat) : w.bestOffset.toNat < w.candIdx.toNat := by
  have := h.offset
  omega

/-- The best candidate so far is one of the search. -/
theorem KeepsBest.offset_lt_count (h : KeepsBest score w) (hle : w.candIdx.toNat ≤ w.candCount.toNat) :
    w.bestOffset.toNat < max 1 w.candCount.toNat :=
  h.offset.trans_le (max_le_max_left 1 hle)

/-- The candidate is taken when it is the first or scores above the best so far; then it scores above all before it. Otherwise the
best so far stands: a tie keeps the lower index. -/
theorem KeepsBest.candidate (h : KeepsBest score w) (hlt : w.candIdx.toNat < w.candCount.toNat) :
    KeepsBest score (searchCandidate score w) := by
  have hn := (searchCandidate_spec score hlt (h.offset_lt_count hlt.le)).1
  have hcase {j : Half} (hj : j.toNat < w.candIdx.toNat + 1) : j = w.candIdx ∨ j.toNat < w.candIdx.toNat :=
    (Nat.lt_succ_iff_lt_or_eq.mp hj).symm.imp_left BitVec.eq_of_toNat_eq
  by_cases htake : w.candIdx = 0 ∨ w.bestScore.toInt < (score w.candIdx).toInt
  · have hbelow (j : Half) (hj : j.toNat < w.candIdx.toNat) : (score j).toInt < (score w.candIdx).toInt := by
      rcases htake with h0 | hs
      · rw [h0] at hj
        exact absurd hj (Nat.not_lt_zero _)
      · exact (h.greatest j hj).trans_lt hs
    simp only [searchCandidate, if_pos htake] at hn ⊢
    refine ⟨by dsimp only; omega, fun _ => rfl, fun j hj => ?_, hbelow⟩
    rcases hcase (hn ▸ hj) with rfl | hj
    · exact le_rfl
    · exact (hbelow j hj).le
  · have hpos : 0 < w.candIdx.toNat :=
      Nat.pos_of_ne_zero fun e => htake (.inl (BitVec.eq_of_toNat_eq e))
    simp only [searchCandidate, if_neg htake] at hn ⊢
    refine ⟨?_, fun _ => h.scored hpos, fun j hj => ?_, h.first⟩
    · have := h.offset_lt hpos
      dsimp only
      omega
    · rcases hcase (hn ▸ hj) with rfl | hj
      · exact not_lt.mp fun hs => htake (.inr hs)
      · exact h.greatest j hj

theorem KeepsBest.candidates (k : Nat) (h : KeepsBest score w) (hle : w.candIdx.toNat + k ≤ w.candCount.toNat) :
    KeepsBest score (searchCandidates score k w) := by
  induction k generalizing w with
  | zero => exact h
  | succ k ih =>
    have hlt : w.candIdx.toNat < w.candCount.toNat := by omega
    obtain ⟨hidx, hcount, -⟩ := searchCandidate_spec score hlt (h.offset_lt_count hlt.le)
    exact ih (h.candidate hlt) (by rw [hidx, hcount]; omega)

/-! ## A posted search (45_wsola.md R126, R127) -/

/-- The registers of a search of `count` candidates when the background steps so far allowed for `n`. -/
structure SearchAt (score : Half → Word) (count n : Nat) (w : Search) : Prop where
  total : w.candCount.toNat = count
  idx : w.candIdx.toNat = min n count
  done : w.done = true ↔ count ≤ n
  pending : w.pending = true ↔ n < count
  best : KeepsBest score w

/-- A post starts a search with no candidate scored (45_wsola.md R126). -/
theorem searchAt_post (score : Half → Word) (w : Search) (c : Fin Config.wsCandMax) :
    SearchAt score (c.val + 1) 0 (searchAfterPlay w (some c)) where
  total := Nat.mod_eq_of_lt (Nat.succ_lt_succ (show c.val < 65535 from c.isLt))
  idx := (Nat.zero_min _).symm
  done := by simp [searchAfterPlay]
  pending := by simp [searchAfterPlay]
  best := ⟨Nat.zero_lt_one, fun h => absurd h (Nat.lt_irrefl 0), fun _ h => absurd h (Nat.not_lt_zero _),
    fun _ h => absurd h (Nat.not_lt_zero _)⟩

/-- A pending search whose candidates below `min n count` are scored is done when `n` covers `count` (45_wsola.md R127). -/
theorem searchAt_finish {count n : Nat} (hcount : w.candCount.toNat = count) (hidx : w.candIdx.toNat = min n count)
    (hpending : w.pending = true) (hdone : w.done = false) (hbest : KeepsBest score w) :
    SearchAt score count n (searchFinish w) := by
  obtain ⟨offset, scored, greatest, first⟩ := hbest
  unfold searchFinish
  by_cases he : w.candIdx = w.candCount
  · have hle : count ≤ n := by
      rw [he, hcount] at hidx
      omega
    rw [if_pos he]
    exact ⟨hcount, hidx, by simpa using hle, by simpa using hle, offset, scored, greatest, first⟩
  · have hlt : n < count := by
      have hne : w.candIdx.toNat ≠ w.candCount.toNat := fun e => he (BitVec.eq_of_toNat_eq e)
      omega
    rw [if_neg he]
    exact ⟨hcount, hidx, by simpa [hdone] using hlt, by simpa [hpending] using hlt, offset, scored, greatest, first⟩

/-- A background step at `per` candidates allows for `per` more; a search that is done stays as it is. -/
theorem SearchAt.step {count n : Nat} (per : Nat) (h : SearchAt score count n w) :
    SearchAt score count (n + per) (searchStep per score w) := by
  obtain ⟨hcount, hidx, hdone, hpending, hbest⟩ := h
  by_cases hlt : n < count
  · have hp := hpending.mpr hlt
    have hd : w.done = false := Bool.eq_false_iff.mpr fun e => absurd (hdone.mp e) (Nat.not_le.mpr hlt)
    have hroom : w.candIdx.toNat + min per (w.candCount.toNat - w.candIdx.toNat) ≤ w.candCount.toNat := by omega
    obtain ⟨kidx, kcount, kpending, kdone, -⟩ :=
      searchCandidates_spec score _ hroom (hbest.offset_lt_count ((Nat.le_add_right _ _).trans hroom))
    rw [searchStep, if_pos hp]
    exact searchAt_finish (by rw [kcount, hcount]) (by rw [kidx]; omega) (kpending.trans hp) (kdone.trans hd)
      (hbest.candidates _ hroom)
  · rw [searchStep, if_neg (mt hpending.mp hlt)]
    exact ⟨hcount, by omega, hdone.trans (by omega), hpending.trans (by omega), hbest⟩

/-- After `k` background steps a posted search has allowed for `per * k` candidates. -/
theorem searchAt_repeat (score : Half → Word) (w : Search) (c : Fin Config.wsCandMax) (per k : Nat) :
    SearchAt score (c.val + 1) (per * k) (Nat.repeat (searchStep per score) k (searchAfterPlay w (some c))) := by
  induction k with
  | zero => exact searchAt_post score w c
  | succ k ih => exact ih.step per

end

/-- Settles O59, from the registers after `k` background steps (`searchAt_repeat`). -/
theorem searchFindsTheFirstBestCandidate : Obligations.SearchFindsTheFirstBestCandidate := by
  unfold Obligations.SearchFindsTheFirstBestCandidate
  intro score w c per k v
  obtain ⟨hcount, hidx, hdone, hpending, hbest⟩ : SearchAt score (c.val + 1) (per * k) v := searchAt_repeat score w c per k
  refine ⟨hcount, hidx, hdone, hpending, fun hpos => ?_⟩
  have hscored : 0 < v.candIdx.toNat := by omega
  exact ⟨hbest.offset_lt hscored, hbest.scored hscored, fun j hj => ⟨hbest.greatest j hj, hbest.first j⟩⟩

end Sys2Proof.Machine
end

section
/-! PROOFS. The host commands (47_host_commands.md R136 to R148): each command with its checks passed is `complete` of its effect, and
what each effect leaves in the registers it writes. -/

namespace Sys2Proof.Machine

/-! ## Setters (47_host_commands.md R136, R141 to R145, 40_tables.md R71) -/

theorem Mode.ofNat?_code (m : Mode) : Mode.ofNat? m.code = some m := by cases m <;> rfl

section

variable {s : State} (hf : s.fault = false)

include hf

theorem exec_nop : exec .nop s = complete none s := unlessFaulted_of_clear hf _

theorem exec_setsil (b : Bool) : exec (.setsil b) s = complete none { s with silence := b } := unlessFaulted_of_clear hf _

theorem exec_setbyp (b : Bool) : exec (.setbyp b) s = complete none { s with bypass := b } := unlessFaulted_of_clear hf _

theorem exec_rstbuf : exec .rstbuf s = complete none { s with resetPending := true } := unlessFaulted_of_clear hf _

theorem exec_setmode {k : BitVec 8} {m : Mode} (hk : k.toNat = m.code) :
    exec (.setmode k) s = complete none { s with mode := m } := by
  show execSetmode k s = _
  rw [execSetmode, unlessFaulted_of_clear hf, hk, Mode.ofNat?_code]

/-- A change of quality asks for a reset; the same quality again does not (47_host_commands.md R142). -/
theorem exec_setqual {k : BitVec 8} (hk : k.toNat ≤ 3) :
    exec (.setqual k) s = complete none
      { s with
        quality := k.setWidth 2
        resetPending := if k.setWidth 2 = s.quality then s.resetPending else true } := by
  show execSetqual k s = _
  rw [execSetqual, unlessFaulted_of_clear hf, if_neg (not_lt.mpr hk)]
  by_cases hq : k.setWidth 2 = s.quality <;> simp [hq]

theorem exec_tblinit {sr : BitVec 32} (ht : s.tablesValid = false) (hsr : sr ≠ 0) :
    exec (.tblinit sr) s = complete none { s with tblSr := sr, tablesValid := true } := by
  show execTblinit sr s = _
  rw [execTblinit, unlessFaulted_of_clear hf, ht, if_neg Bool.false_ne_true, if_neg hsr]

end

/-- Settles O26: each setter passes its checks and completes its write. -/
theorem settersWriteTheirRegisterOnly : Obligations.SettersWriteTheirRegisterOnly := by
  unfold Obligations.SettersWriteTheirRegisterOnly
  intro s hf
  exact ⟨exec_nop hf, exec_setsil hf, exec_setbyp hf, exec_rstbuf hf, fun _ _ hk => exec_setmode hf hk,
    fun _ hk => exec_setqual hf hk, fun _ hsr ht => exec_tblinit hf ht hsr⟩

/-! ## CSRR (47_host_commands.md R137): which addresses have a register, block by block -/

theorem globalReg?_isSome (s : State) (a : Nat) :
    (globalReg? s a).isSome = true ↔ a ≤ 0x00E ∨ (0x010 ≤ a ∧ a ≤ 0x017) := by
  unfold globalReg?
  split <;> simp_all
  omega

theorem paramReg?_isSome (s : State) (k : Nat) : (paramReg? s k).isSome = true ↔ k ≤ 9 := by
  unfold paramReg?
  split <;> simp <;> omega

theorem derivedReg?_isSome (d : Derived) (k : Nat) : (derivedReg? d k).isSome = true ↔ k ≤ 8 := by
  unfold derivedReg?
  split <;> simp_all
  omega

theorem ringReg?_isSome (r : Ring) (k : Nat) :
    (ringReg? r k).isSome = true ↔ k ≤ 5 ∨ (8 ≤ k ∧ k ≤ 15) := by
  unfold ringReg?
  split <;> simp_all
  omega

theorem svfReg?_isSome (v : Svf) (k : Nat) : (svfReg? v k).isSome = true ↔ k ≤ 0xC := by
  unfold svfReg?
  split <;> simp_all
  omega

theorem grainReg?_isSome (g : GrainPool) (k : Nat) : (grainReg? g k).isSome = true ↔ k ≤ 2 := by
  unfold grainReg?
  split <;> simp_all
  omega

theorem slotReg?_isSome (g : GrainSlot) (k : Nat) : (slotReg? g k).isSome = true ↔ k ≤ 7 := by
  unfold slotReg?
  split <;> simp_all
  omega

theorem searchReg?_isSome (w : Search) (k : Nat) : (searchReg? w k).isSome = true ↔ k ≤ 4 := by
  unfold searchReg?
  split <;> simp_all
  omega

theorem mappedAddress_iff (a : Nat) :
    mappedAddress a = true ↔
      a ≤ 0x00E ∨ (0x010 ≤ a ∧ a ≤ 0x017) ∨ (0x020 ≤ a ∧ a ≤ 0x029) ∨ (0x030 ≤ a ∧ a ≤ 0x038) ∨
      (0x040 ≤ a ∧ a ≤ 0x045) ∨ (0x048 ≤ a ∧ a ≤ 0x04F) ∨ (0x050 ≤ a ∧ a ≤ 0x055) ∨ (0x058 ≤ a ∧ a ≤ 0x05F) ∨
      (0x080 ≤ a ∧ a < 0x100 ∧ a % 0x10 ≤ 0xC) ∨ (0x100 ≤ a ∧ a ≤ 0x102) ∨ (0x110 ≤ a ∧ a ≤ 0x18F) ∨
      (0x200 ≤ a ∧ a ≤ 0x204) := by
  simp only [mappedAddress, Bool.or_eq_true, decide_eq_true_eq, or_assoc]

/-- The addresses with a register are the mapped ones (10_state.md R17). -/
theorem reg?_isSome_iff (s : State) (a : Nat) : (s.reg? a).isSome = true ↔ mappedAddress a = true := by
  rw [mappedAddress_iff]
  unfold State.reg?
  split_ifs
  · rw [globalReg?_isSome]; omega
  · rw [paramReg?_isSome]; omega
  · rw [derivedReg?_isSome]; omega
  · rw [ringReg?_isSome]; omega
  · rw [ringReg?_isSome]; omega
  · simp only [Option.isSome_none, Bool.false_eq_true, false_iff]; omega
  · rw [svfReg?_isSome]; omega
  · rw [grainReg?_isSome]; omega
  · rw [slotReg?_isSome]; omega
  · simp only [Option.isSome_none, Bool.false_eq_true, false_iff]; omega
  · rw [searchReg?_isSome]; omega

theorem exec_csrr {s : State} (hf : s.fault = false) {addr : BitVec 16} {v : Word} (hv : s.reg? addr.toNat = some v) :
    exec (.csrr addr) s = complete (some v) s := by
  show execCsrr addr s = _
  rw [execCsrr, hv]
  exact if_neg (by simp [hf])

/-- Settles O27: a mapped address has a register (`reg?_isSome_iff`), and `CSRR` responds with it. -/
theorem csrrRespondsWithTheRegister : Obligations.CsrrRespondsWithTheRegister := by
  unfold Obligations.CsrrRespondsWithTheRegister
  refine ⟨fun s addr hf hm => ?_, reg?_isSome_iff⟩
  obtain ⟨v, hv⟩ := Option.isSome_iff_exists.mp ((reg?_isSome_iff s addr.toNat).mpr hm)
  exact ⟨v, hv, exec_csrr hf hv⟩

/-! ## ARENA (47_host_commands.md R138) -/

theorem exec_arena {s : State} (hf : s.fault = false) (hi : s.inited = false) (which : Space) {size : BitVec 32}
    (hpos : size ≠ 0) (hlt : size.toNat < 2 ^ 24) :
    exec (.arena which size) s = complete none (declareArena s which (size.setWidth 24)) := by
  show execArena which size s = _
  rw [execArena, unlessFaulted_of_clear hf, hi, if_neg Bool.false_ne_true, if_neg (not_or.mpr ⟨hpos, not_le.mpr hlt⟩)]

/-- The end of a command writes no arena. -/
theorem arena_of_end (s : State) (resp : Option Word) (count : BitVec 32) (sp : Space) :
    ({ s with resp := resp, cmdcnt := count } : State).arena sp = s.arena sp := by
  cases sp <;> rfl

/-- Settles O29: the declared arena replaces the old one (`declareArena_arena`), with no byte specified. -/
theorem arenaDeclares : Obligations.ArenaDeclares := by
  unfold Obligations.ArenaDeclares
  intro s which size hf hi hpos hlt
  refine ⟨_, exec_arena hf hi which hpos hlt, ?_, ?_, ?_, fun x => ?_, fun sp hsp => ?_, fun i => ?_⟩
  · rw [declareArena_eq]
  · rw [arena_of_end, declareArena_arena, if_pos rfl]
  · rw [arena_of_end, declareArena_arena, if_pos rfl, BitVec.toNat_setWidth, Nat.mod_eq_of_lt hlt]
  · rw [State.byte?, arena_of_end, declareArena_arena, if_pos rfl, Memory.unspecified_get?]
  · rw [arena_of_end, declareArena_arena, if_neg hsp]
  · rw [declareArena_eq]
    exact mapVector_getElem (unbindIn which) s.rings i.val i.isLt

/-! ## INIT (47_host_commands.md R139) -/

theorem exec_init {s : State} (hf : s.fault = false) (ht : s.tablesValid = true) (hi : s.inited = false)
    (hl : s.large.declared = true) (hs : s.small.declared = true) {sr : BitVec 32} (hsr : sr ≠ 0) :
    exec (.init sr) s = complete none (initBlock s sr) := by
  show execInit sr s = _
  rw [execInit, unlessFaulted_of_clear hf, ht, hi, hl, hs]
  exact if_neg hsr

/-- The bundle the kernels' init functions get is that of the new rate at full quality (45_wsola.md R123). -/
theorem initRegisters_kargs (s : State) (sr : BitVec 32) :
    (initRegisters s sr).kargs = ⟨sr, s.tblSr, 2, false, 0, s.blockSize⟩ := by
  simp [State.kargs, State.intSr, State.channels, State.lofi, State.mono, initRegisters, State.blockSize]

/-- Settles O30: the registers are those `INIT` lists, on the kernels' bundle of `initRegisters_kargs`. -/
theorem initLeavesTheListedState : Obligations.InitLeavesTheListedState := by
  unfold Obligations.InitLeavesTheListedState
  intro s sr hf ht hi hl hs hsr k
  refine ⟨_, exec_init hf ht hi hl hs hsr, ?_, fun i => ?_⟩
  · rw [initBlock, initRegisters_kargs]
    rfl
  · exact mapVector_getElem svfClear s.svfs i.val i.isLt

/-! ## PSET (47_host_commands.md R140) -/

theorem paramValue_pitch_toInt (value : Half) :
    (paramValue 2 value).toInt =
      if value.toInt < -12288 then -12288 else if 12288 < value.toInt then 12288 else value.toInt := by
  have hc : clamp value.toInt (-12288) 12288 =
      if value.toInt < -12288 then -12288 else if 12288 < value.toInt then 12288 else value.toInt := by
    unfold clamp
    omega
  rw [paramValue, if_pos rfl, hc]
  exact toInt_toHalf (by omega) (by omega)

theorem paramValue_flags_toNat (value : Half) : (paramValue 9 value).toNat = value.toNat % 8 := by
  rw [paramValue, if_neg (by decide), if_pos rfl, BitVec.toNat_and]
  exact Nat.and_two_pow_sub_one_eq_mod value.toNat 3

theorem paramValue_unit_toNat {index : Nat} (h2 : index ≠ 2) (h9 : index ≠ 9) (value : Half) :
    (paramValue index value).toNat = min value.toNat 32768 := by
  rw [paramValue, if_neg h2, if_neg h9]
  split
  · exact (Nat.min_eq_left ‹_›).symm
  · exact (Nat.min_eq_right (not_le.mp ‹_›).le).symm

theorem exec_pset {s : State} (hf : s.fault = false) {index : BitVec 8} (value : BitVec 16) (h : index.toNat < 10) :
    exec (.pset index value) s =
      complete none { s with p := s.p.set index.toNat (paramValue index.toNat value) h } := by
  show execPset index value s = _
  rw [execPset, unlessFaulted_of_clear hf, dif_pos h]

/-- Settles O31: the register of the index holds `paramValue`, by the three kinds of register, and the others stay. -/
theorem psetClampsAndStores : Obligations.PsetClampsAndStores := by
  unfold Obligations.PsetClampsAndStores
  intro s index value hf hle
  refine ⟨_, exec_pset hf value (Nat.lt_succ_of_le hle), rfl, fun k => ⟨fun hk => ?_, fun hk h2 => ?_, fun hk h9 => ?_,
    fun hk h2 h9 => ?_⟩⟩
  · exact Vector.getElem_set_ne (Nat.lt_succ_of_le hle) k.isLt hk.symm
  all_goals
    have hself : (s.p.set index.toNat (paramValue index.toNat value) (Nat.lt_succ_of_le hle))[k] = paramValue k.val value := by
      simp [hk]
    simp only [hself]
  · subst h2
    exact paramValue_pitch_toInt value
  · subst h9
    exact paramValue_flags_toNat value
  · exact paramValue_unit_toNat (fun e => h2 (Fin.ext e)) (fun e => h9 (Fin.ext e)) value

/-! ## FRAMEW, FRAMER (47_host_commands.md R146, R147) -/

section

variable {s : State} {index : BitVec 16} (hf : s.fault = false) (h : index.toNat < s.blockSize)

include hf h

theorem exec_framew (left right : BitVec 16) :
    exec (.framew index left right) s = complete none { s with inbuf := s.inbuf.set index.toNat ⟨left, right⟩ } := by
  show execFramew index left right s = _
  rw [execFramew, unlessFaulted_of_clear hf, if_pos h]

theorem exec_framer {f : Frame} (hget : s.outbuf[index.toNat]? = some f) :
    exec (.framer index) s = complete (some (f.r ++ f.l)) s := by
  show execFramer index s = _
  rw [execFramer, unlessFaulted_of_clear hf, if_pos h, List.getD_eq_getElem?_getD, hget]
  rfl

end

/-- Settles O32: with an index inside both buffers, `FRAMEW` sets that frame and `FRAMER` finds one. -/
theorem frameCommandsMoveOneFrame : Obligations.FrameCommandsMoveOneFrame := by
  unfold Obligations.FrameCommandsMoveOneFrame
  intro s index hbuf hf h
  obtain ⟨-, hin, hout⟩ := hbuf
  refine ⟨fun left right => ?_, ?_⟩
  · refine ⟨_, exec_framew hf h left right, rfl, List.length_set.trans hin, ?_, fun j hj => ?_⟩
    · exact List.getElem?_set_self (hin ▸ h)
    · exact List.getElem?_set_ne hj.symm
  · have hget : s.outbuf[index.toNat]? = some (s.outbuf[index.toNat]'(hout ▸ h)) := List.getElem?_eq_getElem _
    exact ⟨_, hget, exec_framer hf h hget⟩

/-! ## PEEK (47_host_commands.md R148) -/

/-- A `PEEK` that passes its checks is decided by the byte. -/
theorem exec_peek {s : State} (hf : s.fault = false) {space : Space} {addr : BitVec 32}
    (hd : (s.arena space).declared = true) (hlt : addr.toNat < (s.arena space).size.toNat) :
    exec (.peek space addr) s =
      (s.byte? space addr.toNat).elim
        (complete (some (zextWord (Config.freeByte s.draws))) { s with draws := s.draws + 1 })
        fun b => complete (some (zextWord b)) s := by
  show execPeek space addr s = _
  rw [execPeek, unlessFaulted_of_clear hf, hd, if_neg (by decide), if_neg (not_le.mpr hlt)]
  cases s.byte? space addr.toNat <;> rfl

/-- Settles O33, by whether the byte is specified (`exec_peek`). -/
theorem peekReadsOneByte : Obligations.PeekReadsOneByte := by
  unfold Obligations.PeekReadsOneByte
  intro s space addr hf hd hlt
  refine ⟨fun b hb => ?_, fun hb => ?_⟩
  · rw [exec_peek hf hd hlt, hb]
    rfl
  · rw [exec_peek hf hd hlt, hb]
    rfl

end Sys2Proof.Machine
end

section
/-! PROOFS. `PREPARE` (48_sequencer.md R149 to R155, R178): the decision and the command it runs, the background work, and what a
lightweight reset and a full re-partition leave. -/

namespace Sys2Proof.Machine

section

variable {s t u : State}

/-! ## The decision (48_sequencer.md R149, R151) -/

theorem prepareKind_of_stable (h : stable s) : prepareKind s = .none := by
  obtain ⟨hpending, hmode⟩ := h
  simp [prepareKind, hpending, hmode]

theorem prepareKind_of_lightWanted (h : lightWanted s) : prepareKind s = .light := by
  obtain ⟨hpending, hchanged, hnone, hfrom, hto⟩ := h
  have hbenign := (benignChange_eq_true s.prevMode s.mode).mpr ⟨hnone, hfrom, hto⟩
  simp [prepareKind, hpending, hchanged, hbenign]

/-- The three decisions. -/
theorem prepare_decision (s : State) : fullWanted s ∨ lightWanted s ∨ stable s := by
  unfold fullWanted lightWanted stable
  rw [← Bool.not_eq_true]
  tauto

section

variable (hf : s.fault = false) (hi : s.inited = true)

include hf hi

theorem exec_prepare_stable (h : stable s) : exec .prepare s = complete none (background s) := by
  show execPrepare s = _
  rw [execPrepare, unlessFaulted_of_clear hf, hi, prepareKind_of_stable h]
  rfl

theorem exec_prepare_light (h : lightWanted s) : exec .prepare s = complete none (background (lightReset s)) := by
  show execPrepare s = _
  rw [execPrepare, unlessFaulted_of_clear hf, hi, prepareKind_of_lightWanted h]
  rfl

theorem exec_prepare_full (h : fullWanted s) {plan : Partition} (fits : partition? s = some plan) :
    exec .prepare s = complete none (background (fullReset s plan)) := by
  show execPrepare s = _
  rw [execPrepare, unlessFaulted_of_clear hf, hi, prepareKind_of_fullWanted h, fits]
  rfl

end

/-- A `PREPARE` that is neither discarded nor faulted was decoded after `INIT`. -/
theorem Completes.prepare_inited (hc : Completes s .prepare u) : s.inited = true := by
  cases hc <;> assumption

/-! ## The background work (48_sequencer.md R155) -/

/-- With the mode committed, the background work is that of `MODE`. -/
theorem background_of_committed (h : s.prevMode = some s.mode) :
    background s =
      { s with
        search :=
          if s.mode = .stretch then searchStep s.hw.wsCandPerPrepare (Config.wsolaSimilarity s.kernels.wsola (rbViews s)) s.search
          else s.search
        kernels :=
          if s.mode = .spectral then { s.kernels with pv := Config.pvBuffer s.kernels.pv ⟨s.p, s.drv⟩ }
          else s.kernels } := by
  have hmode (m : Mode) : s.prevMode = some m ↔ s.mode = m := by rw [h, Option.some.injEq]
  unfold background
  split
  · rename_i hp
    rw [if_pos ((hmode _).mp hp), if_neg (by simp [(hmode _).mp hp])]
    rfl
  · rename_i hp
    rw [if_neg (by simp [(hmode _).mp hp]), if_pos ((hmode _).mp hp)]
    rfl
  · rename_i hstretch hspectral
    rw [if_neg fun e => hstretch ((hmode _).mpr e), if_neg fun e => hspectral ((hmode _).mpr e)]

/-- An idle search stays idle (45_wsola.md R127). -/
theorem searchStep_idle (per : Nat) (score : Half → Word) : searchStep per score Search.idle = Search.idle := rfl

/-- Settles O46: in `Stable` the decision is to reset nothing, and the committed mode is `MODE`. -/
theorem prepareInStableOnlyWorksInTheBackground : Obligations.PrepareInStableOnlyWorksInTheBackground := by
  unfold Obligations.PrepareInStableOnlyWorksInTheBackground
  intro s hf hi hst
  rw [exec_prepare_stable hf hi hst, background_of_committed hst.2]
  rfl

/-! ## The lightweight reset (48_sequencer.md R153, R154) -/

/-- An engine init gives the kernel of its own mode the init value (48_sequencer.md R154). -/
theorem engineKernels_eq (k : Kernels) (a : KArgs) (m : Mode) :
    engineKernels k a m =
      { k with
        wsola := if m = .stretch then Config.wsolaInit a else k.wsola
        pv := if m = .spectral then Config.pvInit a else k.pv
        loop := if m = .loopingDelay then Config.loopInit a else k.loop } := by
  cases m <;> rfl

theorem clearAllSvf_getElem (v : Vector Svf 8) (i : Fin 8) :
    (clearAllSvf v)[i] = { v[i] with s1 := 0, s2 := 0, lp := 0, hp := 0, bp := 0, notch := 0 } :=
  mapVector_getElem svfClear v i.val i.isLt

/-- After a lightweight reset the search is idle and the mode is not Spectral, so no background work follows. -/
theorem background_lightReset (h : s.mode ≠ .spectral) : background (lightReset s) = lightReset s := by
  rw [background_of_committed rfl]
  have hsearch : (lightReset s).search = Search.idle := rfl
  have hmode : (lightReset s).mode = s.mode := rfl
  rw [hsearch, searchStep_idle, ite_self, hmode, if_neg h]
  rfl

/-- Settles O47: the reset names all it writes, and no background work follows it. -/
theorem prepareLightResetEffect : Obligations.PrepareLightResetEffect := by
  unfold Obligations.PrepareLightResetEffect
  intro s hf hi hw k
  refine ⟨_, exec_prepare_light hf hi hw, ?_⟩
  obtain ⟨-, -, -, -, hmode⟩ := hw
  rw [background_lightReset hmode, lightReset_eq, engineKernels_eq]
  simp only [if_neg hmode]
  exact ⟨rfl, clearAllSvf_getElem s.svfs⟩

/-! ## The full re-partition (48_sequencer.md R152, R154, R155, 20_memory.md R50) -/

/-- The registers of a partition are those 20_memory.md R50 gives. -/
structure PlanValues (s : State) (plan : Partition) : Prop where
  ringSize : plan.ringSize.toNat = regionBytes s
  samples : capacity s.format plan.ringSize.toNat = regionSamples s
  stereo : plan.stereo = !s.mono
  wsSpace : plan.wsSpace = if s.mono then .small else .large
  wsBase : plan.wsBase.toNat = if s.mono then 0 else s.small.size.toNat
  wsSize : plan.wsSize.toNat = workspaceBytes s

/-- The capacity of a region of that partition (20_memory.md R48, R50). -/
theorem capacity_format (s : State) (n : Nat) : capacity s.format n = if s.lofi then n else n / 2 := by
  unfold State.format
  split
  · rfl
  · exact Nat.shiftRight_eq_div_pow n 1

theorem planValues_of_partition? {plan : Partition} (h : partition? s = some plan) : PlanValues s plan := by
  have hsize : plan.ringSize.toNat = regionBytes s := by
    obtain ⟨-, ⟨hm, rfl⟩ | ⟨hm, -, rfl⟩⟩ := partition?_cases h <;> rw [regionBytes, hm] <;> exact evenSize_toNat _
  have hsamples : capacity s.format plan.ringSize.toNat = regionSamples s := by
    rw [capacity_format, hsize]
    rfl
  obtain ⟨-, ⟨hm, rfl⟩ | ⟨hm, hle, rfl⟩⟩ := partition?_cases h
  · refine ⟨hsize, hsamples, ?_, ?_, ?_, ?_⟩ <;> simp [hm, workspaceBytes]
  · refine ⟨hsize, hsamples, ?_, ?_, ?_, ?_⟩ <;> simp [hm, workspaceBytes, BitVec.toNat_sub_of_le (BitVec.le_def.mpr hle)]

/-- Where none of R50's conditions fails the partition exists. -/
theorem partition?_of_not_misfit (h : ¬ partitionMisfit s) : ∃ plan, partition? s = some plan := by
  simp only [partitionMisfit, regionSamples, ← capacity_format, regionBytes, workspaceBytes, not_or, not_and, not_lt] at h
  obtain ⟨hle, hroom, hws⟩ := h
  unfold partition?
  cases hm : s.mono with
  | true =>
    simp only [hm, if_true] at hroom hws
    simp [evenSize_toNat, hroom, hws]
  | false =>
    have hle := hle hm
    simp only [hm, Bool.false_eq_true, if_false] at hroom hws
    simp [evenSize_toNat, hle, hroom, BitVec.toNat_sub_of_le (BitVec.le_def.mpr hle), hws]

/-- A full re-partition with its background work, on top of the carve-up. -/
theorem background_fullReset_eq (s : State) (plan : Partition) :
    background (fullReset s plan) =
      let t := carve s.thaw plan
      { t with
        svfs := clearAllSvf s.svfs
        upPrev := Frame.zero
        kernels :=
          ⟨if s.mode = .stretch then Config.wsolaInit t.kargs else s.kernels.wsola,
            if s.mode = .spectral then Config.pvBuffer (Config.pvInit t.kargs) ⟨t.p, s.drv⟩ else s.kernels.pv,
            if s.mode = .loopingDelay then Config.loopInit t.kargs else s.kernels.loop,
            Config.diffInit t.kargs, Config.psInit t.kargs, Config.revInit t.kargs⟩
        loopSync := false
        search := Search.idle
        grains := if s.mode = .granular then GrainPool.fresh else s.grains
        resetPending := false
        prevMode := some s.mode } := by
  obtain ⟨t, ht, hfull⟩ := fullReset_eq s plan
  have hdrv : t.drv = s.drv := by rw [ht, carve_eq]
  have hmode : t.mode = s.mode := by rw [ht, carve_eq]
  rw [show carve s.thaw plan = t from ht.symm, hfull, engineKernels_eq, background_of_committed (congrArg some hmode.symm)]
  simp only [searchStep_idle, ite_self, hmode, hdrv]
  cases s.mode <;> rfl

/-- Only the freeze flag of the parameters is cleared (48_sequencer.md R152). -/
theorem thaw_flag (x : Half) (b : Nat) : (x &&& 0xFFFE).getLsbD b = if b = 0 then false else x.getLsbD b := by
  have hmask : ∀ k : Fin 16, (0xFFFE : Half).getLsbD k.val = decide (k.val ≠ 0) := by decide
  rw [BitVec.getLsbD_and]
  by_cases hb : b < 16
  · rw [hmask ⟨b, hb⟩]
    split <;> simp [*]
  · rw [BitVec.getLsbD_of_ge x b (by omega)]
    simp

/-- The ring buffers of a carve-up, where they are bound: fresh over their region (48_sequencer.md R152). -/
theorem carvedRings_values {plan : Partition} (h : PlanValues s plan) {rings : Vector Ring 2}
    (hr : rings = carvedRings s.format plan) :
    rings[0] = ⟨true, s.format, .large, 0, rings[0].size, rings[0].n, 0, 0, Vector.replicate 8 0⟩ ∧
      rings[0].size.toNat = regionBytes s ∧ rings[0].n.toNat = regionSamples s ∧
      rings[1] = (if s.mono then ⟨false, .linear16, .large, 0, 0, 0, 0, 0, Vector.replicate 8 0⟩
        else ⟨true, s.format, .small, 0, rings[0].size, rings[0].n, 0, 0, Vector.replicate 8 0⟩) := by
  subst hr
  refine ⟨rfl, h.ringSize, (boundRing_n ..).trans h.samples, ?_⟩
  show (if plan.stereo then boundRing .small s.format 0 plan.ringSize else Ring.unbound) = _
  rw [h.stereo]
  cases s.mono <;> rfl

/-- The bytes of a carve-up of the partition R50 gives (20_memory.md R50, R52). -/
theorem carve_thaw_byte? {plan : Partition} (h : PlanValues s plan) (hl : s.large.mem.wf = true) (hs : s.small.mem.wf = true)
    (sp : Space) (x : Nat) :
    (carve s.thaw plan).byte? sp x =
      if sp = plan.wsSpace ∧ plan.wsBase.toNat ≤ x ∧ x < plan.wsBase.toNat + plan.wsSize.toNat then none
      else if (sp = .large ∨ s.mono = false) ∧ x < regionBytes s then some 0
      else s.byte? sp x := by
  rw [carve_byte? s.thaw plan hl hs]
  simp only [h.stereo, h.ringSize, Bool.not_eq_true']
  rfl

/-- Settles O48: the partition that fits has the values of R50, and the carve-up, the resets and the background work name all they
write. -/
theorem prepareFullResetEffect : Obligations.PrepareFullResetEffect := by
  unfold Obligations.PrepareFullResetEffect
  intro s hf hi hw hfit hl hs
  obtain ⟨plan, fits⟩ := partition?_of_not_misfit hfit
  have hplan := planValues_of_partition? fits
  have hexec := exec_prepare_full hf hi hw fits
  have hbyte := carve_thaw_byte? hplan hl hs
  rw [background_fullReset_eq] at hexec
  rw [carve_eq] at hexec hbyte
  obtain ⟨hleft, hbytes, hsamples, hright⟩ := carvedRings_values hplan rfl
  refine ⟨_, hexec, ?_, fun sp => by cases sp <;> exact ⟨rfl, rfl⟩, fun k hk => ?_, fun b => ?_, hplan.wsBase, hplan.wsSize,
    hleft, hbytes, hsamples, hright, hbyte, clearAllSvf_getElem s.svfs, rfl⟩
  · rw [← hplan.wsSpace]
    rfl
  · exact Vector.getElem_set_ne (by decide) _ fun e => hk (Fin.ext e.symm)
  · rw [← thaw_flag]
    exact congrArg (BitVec.getLsbD · b) (Vector.getElem_set_self (by decide))

/-! ## Freeze and the recorded audio (48_sequencer.md R178) -/

/-- Every sample of a ring buffer that a carve-up binds loads as 0: its bytes lie below the workspace. -/
theorem carve_load {plan : Partition} (hp : PlanFits s plan) (hl : s.large.mem.wf = true) (hs : s.small.mem.wf = true)
    (i : Fin 2) (hb : (carve s plan).rings[i].bound = true) {a : Nat} (ha : a < (carve s plan).rings[i].n.toNat) :
    rbLoad (carve s plan) i a = 0 := by
  have hring : (carve s plan).rings = carvedRings s.format plan := by rw [carve_eq]
  obtain ⟨sp, hi, hsp⟩ : ∃ sp, (carve s plan).rings[i] = boundRing sp s.format 0 plan.ringSize ∧
      (sp = .large ∨ plan.stereo = true) := by
    rw [hring] at hb ⊢
    revert i
    refine Fin.forall_fin_two.mpr ⟨fun _ _ => ⟨.large, rfl, .inl rfl⟩, fun hb _ => ?_⟩
    cases hst : plan.stereo with
    | false => simp [carvedRings, hst, Ring.unbound] at hb
    | true => exact ⟨.small, by simp [carvedRings, hst], .inr rfl⟩
  refine rbLoad_zero fun x hx => ?_
  rw [hi] at ha hx ⊢
  obtain ⟨-, -, -, hlt⟩ := inRegion_of_inSample rfl (boundRing_n sp s.format 0 plan.ringSize) ha hx
  have hlt : x < plan.ringSize.toNat := by simpa [boundRing] using hlt
  rw [carve_byte? s plan hl hs, if_neg, if_pos ⟨hsp, hlt⟩]
  rintro ⟨h, hge, -⟩
  have := hp.apart (hsp.imp_left fun e => h.symm.trans e)
  omega

/-- A full re-partition leaves freeze off and silent ring buffers. -/
theorem background_fullReset_silent {plan : Partition} (fits : partition? s = some plan) (hl : s.large.mem.wf = true)
    (hs : s.small.mem.wf = true) :
    (background (fullReset s plan)).p[9].getLsbD 0 = false ∧
      ∀ i : Fin 2, (background (fullReset s plan)).rings[i].bound = true →
        ∀ a, a < (background (fullReset s plan)).rings[i].n.toNat → rbLoad (background (fullReset s plan)) i a = 0 := by
  have hp : PlanFits s.thaw plan := planFits_of_partition? fits
  obtain ⟨hlarge, hsmall, hrings⟩ := background_fullReset_memory s plan
  have hcarved : (background (fullReset s plan)).rings = (carve s.thaw plan).rings := by
    rw [hrings, carve_eq]
    rfl
  refine ⟨?_, fun i hb a ha => ?_⟩
  · obtain ⟨ml, ms, rs, w, k, e⟩ := background_fullReset_frame s plan
    rw [e]
    exact (congrArg (BitVec.getLsbD · 0) (Vector.getElem_set_self (by decide))).trans (thaw_flag s.p[9] 0)
  · rw [hcarved] at hb ha
    rw [← carve_load hp hl hs i hb ha]
    exact rbLoad_congr (by rw [hcarved]) fun x _ =>
      byte?_congr (by cases (carve s.thaw plan).rings[i].space; exacts [hlarge, hsmall]) x

/-- A lightweight reset or none leaves the parameters, the arenas and the ring buffers. -/
theorem prepare_keeps_audio (hf : s.fault = false) (hi : s.inited = true) (hw : ¬ fullWanted s)
    (h : exec .prepare s = .next t) : t.p = s.p ∧ t.large = s.large ∧ t.small = s.small ∧ t.rings = s.rings := by
  rcases (prepare_decision s).resolve_left hw with hlight | hstable
  · obtain ⟨w, k, e⟩ := background_lightReset_frame s
    rw [exec_prepare_light hf hi hlight, e] at h
    cases h
    exact ⟨rfl, rfl, rfl, rfl⟩
  · obtain ⟨w, k, e⟩ := background_frame s
    rw [exec_prepare_stable hf hi hstable, e] at h
    cases h
    exact ⟨rfl, rfl, rfl, rfl⟩

/-- Settles O50: the carve-up of a full re-partition zeroes the regions, the other decisions leave arenas, ring buffers and
parameters. -/
theorem freezeAsymmetry : Obligations.FreezeAsymmetry := by
  unfold Obligations.FreezeAsymmetry
  intro s t hf hl hs h ht
  cases exec_ends h with
  | discarded hs => exact absurd (hf.symm.trans hs) Bool.false_ne_true
  | faulted => cases ht
  | @completed _ r u hc =>
    refine ⟨fun hw => ?_, fun hw => ?_⟩
    · obtain ⟨plan, fits, rfl⟩ := hc.fullReset_of_fullWanted hw
      obtain ⟨hflag, hload⟩ := background_fullReset_silent fits hl hs
      exact ⟨hflag, hload⟩
    · obtain ⟨hp, hlarge, hsmall, hrings⟩ := prepare_keeps_audio hf hc.prepare_inited hw h
      refine ⟨by rw [hp], hrings, fun sp x => byte?_congr ?_ x⟩
      cases sp
      exacts [hlarge, hsmall]

/-- Settles O17, a part of the invariant of a run (O8). -/
theorem stepKeepsTheBlockReady : Obligations.StepKeepsTheBlockReady := by
  unfold Obligations.StepKeepsTheBlockReady
  exact fun s t h hst => (everyStepKeepsTheInvariant s t h hst).ready

end

end Sys2Proof.Machine
end

section
/-! PROOFS. `PROCESS` at its gates (48_sequencer.md R157, R158, R175, R176), the freeze follower (R160) and the derived parameters
(R162, R170, R177). -/

namespace Sys2Proof.Machine

section

variable {s t : State} {size : BitVec 16}

/-! ## Bypass and the silence gate (48_sequencer.md R157, R158) -/

/-- A `PROCESS` of the right size after `INIT` runs its steps (48_sequencer.md R156). -/
theorem exec_process (hf : s.fault = false) (hi : s.inited = true) (hsize : size.toNat = s.blockSize) :
    exec (.process size) s = complete none (processSteps s) := by
  show execProcess size s = _
  rw [execProcess, unlessFaulted_of_clear hf, hi, if_neg (by decide), if_neg (not_not.mpr hsize)]

theorem processSteps_bypass (hb : s.bypass = true) : processSteps s = { s with outbuf := s.inbuf } := if_pos hb

theorem processSteps_gated (hb : s.bypass = false) (hg : s.gated = true) :
    processSteps s = { s with outbuf := zeroBlock s.blockSize } := by
  rw [processSteps, hb, hg]
  rfl

theorem gated_iff (s : State) :
    s.gated = true ↔ s.silence = true ∨ s.resetPending = true ∨ s.prevMode ≠ some s.mode := by
  rw [State.gated, Bool.or_eq_true, Bool.or_eq_true, decide_eq_true_eq, or_assoc]

/-- Settles O51: bypass is tested before the gate. -/
theorem bypassCopiesTheInput : Obligations.BypassCopiesTheInput := by
  unfold Obligations.BypassCopiesTheInput
  intro s size hf hi hb hsize
  rw [exec_process hf hi hsize, processSteps_bypass hb]
  rfl

/-- A closed gate writes a zero block (48_sequencer.md R158). -/
theorem exec_process_gated (hf : s.fault = false) (hi : s.inited = true) (hb : s.bypass = false)
    (hsize : size.toNat = s.blockSize) (hg : s.gated = true) :
    exec (.process size) s = .next
      { s with outbuf := List.replicate s.blockSize ⟨0, 0⟩, resp := none, cmdcnt := s.cmdcnt + 1 } := by
  rw [exec_process hf hi hsize, processSteps_gated hb hg]
  rfl

/-- Settles O52: each of the three conditions closes the gate, and a `SETMODE` away from the committed mode leaves the third. -/
theorem closedGateIsSilent : Obligations.ClosedGateIsSilent := by
  unfold Obligations.ClosedGateIsSilent
  refine ⟨fun s size hf hi hb hsize hg => exec_process_gated hf hi hb hsize ((gated_iff s).mpr hg),
    fun s size k m hf hi hb hsize hk hm => ⟨_, exec_setmode hf hk, ?_⟩⟩
  exact exec_process_gated hf hi hb hsize ((gated_iff _).mpr (.inr (.inr hm)))

/-! ## The freeze follower (48_sequencer.md R160) -/

/-- How far the follower is from its target. -/
def freezeDistance (frozen : Bool) (lp : Half) : Nat := if frozen then 32768 - lp.toNat else lp.toNat

/-- What one block leaves of a distance: a sixteenth of it, rounded up, is taken away. -/
def distanceAfter (d : Nat) : Nat := d - (d + 15) / 16

theorem freezeFollow_true {lp : Half} (h : lp.toNat ≤ 32768) :
    (freezeFollow true lp).toNat = lp.toNat + (32768 - lp.toNat + 15) / 16 := by
  unfold freezeFollow
  simp only [if_true, Config.frzDiv]
  split
  · rw [toNat_toHalf] <;> omega
  · rw [if_neg] <;> omega

theorem freezeFollow_false {lp : Half} (h : lp.toNat ≤ 32768) :
    (freezeFollow false lp).toNat = lp.toNat - (lp.toNat + 15) / 16 := by
  unfold freezeFollow
  simp only [Bool.false_eq_true, if_false, Config.frzDiv]
  rw [if_neg (by omega)]
  split
  · rw [toNat_toHalf] <;> omega
  · omega

theorem freezeDistance_freezeFollow (frozen : Bool) {lp : Half} (h : lp.toNat ≤ 32768) :
    freezeDistance frozen (freezeFollow frozen lp) = distanceAfter (freezeDistance frozen lp) := by
  cases frozen
  · exact freezeFollow_false h
  · simp only [freezeDistance, distanceAfter, if_true, freezeFollow_true h]
    omega

theorem distanceAfter_mono : Monotone distanceAfter := by
  intro a b hab
  unfold distanceAfter
  omega

/-- The follower stays in range, and its distance falls block by block. -/
theorem freezeDistance_repeat (frozen : Bool) {lp : Half} (h : lp.toNat ≤ 32768) (n : Nat) :
    (Nat.repeat (freezeFollow frozen) n lp).toNat ≤ 32768 ∧
      freezeDistance frozen (Nat.repeat (freezeFollow frozen) n lp) = distanceAfter^[n] (freezeDistance frozen lp) := by
  induction n with
  | zero => exact ⟨h, rfl⟩
  | succ n ih =>
    obtain ⟨hle, hdist⟩ := ih
    rw [Function.iterate_succ_apply', ← hdist]
    exact ⟨freezeFollow_le frozen hle, freezeDistance_freezeFollow frozen hle⟩

/-- The greatest distance is gone after 128 blocks, and so is every smaller one. -/
theorem freezeDistance_repeat_128 (frozen : Bool) {lp : Half} (h : lp.toNat ≤ 32768) :
    freezeDistance frozen (Nat.repeat (freezeFollow frozen) 128 lp) = 0 := by
  have hle : freezeDistance frozen lp ≤ 32768 := by
    unfold freezeDistance
    split <;> omega
  have hlast : distanceAfter^[128] 32768 = 0 := by simp [distanceAfter]
  rw [(freezeDistance_repeat frozen h 128).2]
  exact Nat.le_zero.mp ((distanceAfter_mono.iterate 128 hle).trans_eq hlast)

/-- Settles O56: the step is a sixteenth of the distance, and 128 steps use up any distance. -/
theorem freezeFollowerReachesItsTarget : Obligations.FreezeFollowerReachesItsTarget := by
  unfold Obligations.FreezeFollowerReachesItsTarget
  intro lp h
  refine ⟨freezeFollow_true h, freezeFollow_false h, fun frozen => freezeFollow_le frozen h, ?_, ?_, by decide, by decide⟩
  · obtain ⟨hle, -⟩ := freezeDistance_repeat true h 128
    have hzero : 32768 - (Nat.repeat (freezeFollow true) 128 lp).toNat = 0 := freezeDistance_repeat_128 true h
    exact BitVec.eq_of_toNat_eq (show _ = 32768 by omega)
  · exact BitVec.eq_of_toNat_eq (freezeDistance_repeat_128 false h)

/-! ## The derived parameters (48_sequencer.md R162, R170) -/

/-! Each formula with its shifts as floor divisions. -/

theorem deriveOverlap_eq (dens : Nat) :
    (deriveOverlap dens : Int) =
      32768 + (((dens : Int) - 16384).natAbs * 2 * (((dens : Int) - 16384).natAbs * 2) / 32768 : Nat) * 7 := by
  simp only [deriveOverlap, Nat.shiftRight_eq_div_pow]
  rfl

theorem deriveShape_eq (tex : Nat) :
    (deriveShape tex : Int) = if (tex : Int) < 24576 then (tex : Int) * 4 / 3 else 32768 := by
  unfold deriveShape
  split <;> omega

theorem deriveDiff_eq (m : Mode) (tex dens : Nat) :
    (deriveDiff m tex dens : Int) =
      if m = .granular then (if 24576 < (tex : Int) then ((tex : Int) - 24576) * 4 else 0) else dens := by
  unfold deriveDiff
  split
  · split <;> omega
  · rfl

theorem deriveRefresh_eq (dens : Nat) : (deriveRefresh dens : Int) = 328 + (dens : Int) * 32440 / 32768 := by
  rw [deriveRefresh, Nat.shiftRight_eq_div_pow]
  push_cast
  rfl

theorem deriveWarp_eq (size : Nat) :
    deriveWarp size = 16384 +
      4 * (((size : Int) - 16384) * ((size : Int) - 16384) / 32768 * ((size : Int) - 16384) / 32768) := by
  simp only [deriveWarp, shr_ofNat]
  rfl

theorem derivePhrand_eq (dens : Nat) :
    derivePhrand dens =
      max 0 (min (((dens : Int) - 16384) * ((dens : Int) - 16384) / 32768 * 137626 / 32768 - 1638) 32768) := by
  simp only [derivePhrand, clamp, shr_ofNat]
  norm_num
  omega

theorem deriveReverb_eq (reverb fb lp : Nat) :
    (deriveReverb reverb fb lp : Int) =
      min ((reverb : Int) * 31130 / 32768 + (fb : Int) * fb / 32768 * lp / 32768) 32768 := by
  simp only [deriveReverb, Nat.shiftRight_eq_div_pow]
  push_cast
  rfl

/-- The derived-parameter registers hold the formulas of R162 for parameters in range. -/
theorem derived_values (h : ParamsOk s) :
    (derived s).overlap.toNat = deriveOverlap s.p[3].toNat ∧ (derived s).shape.toNat = deriveShape s.p[4].toNat ∧
      (derived s).diff.toNat = deriveDiff s.mode s.p[4].toNat s.p[3].toNat ∧ (derived s).quant.toNat = s.p[4].toNat ∧
      (derived s).refresh.toNat = deriveRefresh s.p[3].toNat ∧ ((derived s).warp.toNat : Int) = deriveWarp s.p[1].toNat ∧
      ((derived s).phrand.toNat : Int) = derivePhrand s.p[3].toNat ∧
      (derived s).reverb.toNat = deriveReverb s.p[8].toNat s.p[7].toNat s.freezeLp.toNat := by
  have hdens : s.p[3].toNat ≤ 32768 := h.unit 3 (by decide) (by decide)
  have htex : s.p[4].toNat ≤ 32768 := h.unit 4 (by decide) (by decide)
  have hsize : s.p[1].toNat ≤ 32768 := h.unit 1 (by decide) (by decide)
  have hoverlap := deriveOverlap_range hdens
  have hshape := deriveShape_le s.p[4].toNat
  have hdiff := deriveDiff_le s.mode htex hdens
  have hrefresh := deriveRefresh_range hdens
  obtain ⟨hwarp, hwarp'⟩ := deriveWarp_range hsize
  obtain ⟨hphrand, hphrand'⟩ := derivePhrand_range s.p[3].toNat
  have hreverb := deriveReverb_le s.p[8].toNat s.p[7].toNat s.freezeLp.toNat
  simp only [derived, BitVec.toNat_ofNat]
  rw [toNat_toHalf hwarp (by omega), toNat_toHalf hphrand (by omega)]
  omega

/-- Settles O54: step 6a runs on the parameters of the block and the new follower, which are in range. -/
theorem processDerivesItsParameters : Obligations.ProcessDerivesItsParameters := by
  unfold Obligations.ProcessDerivesItsParameters
  intro s size hf hi hb hs hst hp hsize
  have hlp : (processBlock s).freezeLp = freezeFollow s.frozen s.freezeLp := congrArg State.freezeLp (processBlock_eq s)
  have hdrv : (processBlock s).drv = derived { s with freezeLp := (processBlock s).freezeLp } := by
    rw [hlp]
    exact congrArg State.drv (processBlock_eq s)
  have hok : ParamsOk { s with freezeLp := (processBlock s).freezeLp } :=
    ⟨hp.unit, hp.pitch, hp.flags, hlp ▸ freezeFollow_le _ hp.freezeLp, hp.dwPrev⟩
  obtain ⟨hoverlap, hshape, hdiff, hquant, hrefresh, hwarp, hphrand, hreverb⟩ := derived_values hok
  rw [← hdrv] at hoverlap hshape hdiff hquant hrefresh hwarp hphrand hreverb
  have hdet : (processBlock s).drv.det = decide (s.p[3].toNat < 16384) := by
    rw [hdrv]
    rfl
  refine ⟨_, exec_process_of_gate_open hf hi hb hs hst hsize, ?_⟩
  intro size dens tex fb far
  refine ⟨?_, ?_, ?_, ?_, congrArg Nat.cast hquant, ?_, hwarp.trans (deriveWarp_eq _), hphrand.trans (derivePhrand_eq _), ?_⟩
  · exact (congrArg Nat.cast hoverlap).trans (deriveOverlap_eq _)
  · show (processBlock s).drv.det = true ↔ (s.p[3].toNat : Int) < 16384
    rw [hdet, decide_eq_true_eq]
    omega
  · exact (congrArg Nat.cast hshape).trans (deriveShape_eq _)
  · exact (congrArg Nat.cast hdiff).trans (deriveDiff_eq ..)
  · exact (congrArg Nat.cast hrefresh).trans (deriveRefresh_eq _)
  · exact (congrArg Nat.cast hreverb).trans (deriveReverb_eq ..)

/-! ## What the derived parameters depend on (48_sequencer.md R177) -/

/-- A `PROCESS` that passes its gate and raises no fault derives its parameters from those of the block and the follower it leaves. -/
theorem process_derives (hb : s.bypass = false) (hs : s.silence = false) (hst : stable s) (hf : s.fault = false)
    (h : exec (.process size) s = .next t) (ht : t.fault = false) : t.drv = derived { s with freezeLp := t.freezeLp } := by
  cases exec_ends h with
  | discarded hf' => exact absurd (hf.symm.trans hf') Bool.false_ne_true
  | faulted => cases ht
  | completed _ _ hc =>
    cases hc with
    | processBypass _ hb' => exact absurd (hb.symm.trans hb') Bool.false_ne_true
    | processSilent _ _ hg =>
      obtain ⟨hr, hm⟩ := hst
      rcases (gated_iff s).mp hg with h | h | h
      · exact absurd (hs.symm.trans h) Bool.false_ne_true
      · exact absurd (hr.symm.trans h) Bool.false_ne_true
      · exact absurd hm h
    | processBlock =>
      show (processBlock s).drv = derived { s with freezeLp := (processBlock s).freezeLp }
      rw [processBlock_eq]

/-- Settles O57: each derived parameter is a function of the parameters its formula names. -/
theorem derivedParametersArePure : Obligations.DerivedParametersArePure := by
  unfold Obligations.DerivedParametersArePure
  intro s s' t t' size size' hb hb' hs hs' hst hst' hf hf' h h' ht ht'
  rw [process_derives hb hs hst hf h ht, process_derives hb' hs' hst' hf' h' ht']
  refine ⟨fun h3 => ?_, fun h4 => ?_, fun h1 => ?_, fun h3 h4 hm => ?_, fun h7 h8 hlp => ?_⟩
  · simp only [derived, h3, and_self]
  · simp only [derived, h4, and_self]
  · simp only [derived, h1]
  · simp only [derived, h3, h4, hm]
  · simp only [derived, h7, h8, hlp]

end

end Sys2Proof.Machine
end

section
/-! PROOFS. The blocks of a `PROCESS` sample by sample (48_sequencer.md R159 to R161, R165, R168): what each stage's recursion over a
block leaves in a filter and in a sample of a channel, against the formulas of the rules. -/

namespace Sys2Proof.Machine

/-! ## Samples of a block -/

@[simp] theorem sampleOf_cons_zero (f : Frame) (xs : List Frame) (c : Fin 2) : sampleOf (f :: xs) c 0 = (f.channel c).toInt := rfl

@[simp] theorem sampleOf_cons_succ (f : Frame) (xs : List Frame) (c : Fin 2) (k : Nat) :
    sampleOf (f :: xs) c (k + 1) = sampleOf xs c k := rfl

theorem samplesOf_cons_succ (f : Frame) (xs : List Frame) (c : Fin 2) (k : Nat) :
    samplesOf (f :: xs) c (k + 1) = (f.channel c).toInt :: samplesOf xs c k := by
  rw [samplesOf, List.range_succ_eq_map, List.map_cons, List.map_map]
  rfl

/-- All the samples of a channel. -/
theorem samplesOf_length (xs : List Frame) (c : Fin 2) : samplesOf xs c xs.length = xs.map fun f => (f.channel c).toInt := by
  induction xs with
  | nil => rfl
  | cons f xs ih => rw [List.length_cons, samplesOf_cons_succ, ih, List.map_cons]

/-- Samples that agree give the same list of samples. -/
theorem samplesOf_eq_map {xs : List Frame} {c : Fin 2} {k : Nat} {g : Nat → Int} (h : ∀ j < k, sampleOf xs c j = g j) :
    samplesOf xs c k = (List.range k).map g :=
  List.map_congr_left fun j hj => h j (List.mem_range.mp hj)

/-- A frame is its two samples. -/
theorem getD_eq_samples (xs : List Frame) (k : Nat) :
    xs.getD k ⟨0, 0⟩ = ⟨BitVec.ofInt 16 (sampleOf xs 0 k), BitVec.ofInt 16 (sampleOf xs 1 k)⟩ := by
  simp [sampleOf, Frame.channel]

/-- A block is the list of its frames, each given by its two samples. -/
theorem eq_map_of_samples {xs : List Frame} {n : Nat} {g : Fin 2 → Nat → Int} (hlen : xs.length = n)
    (h : ∀ c, ∀ k < n, sampleOf xs c k = g c k) :
    xs = (List.range n).map fun k => ⟨BitVec.ofInt 16 (g 0 k), BitVec.ofInt 16 (g 1 k)⟩ := by
  refine List.ext_getElem (by simp [hlen]) fun k hk _ => ?_
  have hget : xs.getD k ⟨0, 0⟩ = xs[k] := by simp [hk]
  rw [List.getElem_map, List.getElem_range, ← h 0 k (hlen ▸ hk), ← h 1 k (hlen ▸ hk), ← getD_eq_samples, hget]

/-- The same of a block of fixed length made of a list. -/
theorem blockOf_eq_ofFn {xs : List Frame} {n : Nat} {g : Fin 2 → Nat → Int} (h : ∀ c, ∀ k < n, sampleOf xs c k = g c k) :
    blockOf n xs = Vector.ofFn fun k : Fin n => ⟨BitVec.ofInt 16 (g 0 k.val), BitVec.ofInt 16 (g 1 k.val)⟩ := by
  refine Vector.ext fun k hk => ?_
  rw [blockOf_getElem, Vector.getElem_ofFn, ← h 0 k hk, ← h 1 k hk, ← getD_eq_samples]
  rfl

theorem sampleOf_blockOf {n k : Nat} (hk : k < n) (xs : List Frame) (c : Fin 2) :
    sampleOf (blockOf n xs).toList c k = sampleOf xs c k := by
  have hget : (blockOf n xs).toList.getD k ⟨0, 0⟩ = xs.getD k ⟨0, 0⟩ := by
    simp [List.getD_eq_getElem?_getD, hk, Frame.zero]
  rw [sampleOf, hget]
  rfl

theorem sampleOf_map (g : Frame → Frame) {xs : List Frame} {k : Nat} (hk : k < xs.length) (c : Fin 2) :
    sampleOf (xs.map g) c k = ((g (xs.getD k ⟨0, 0⟩)).channel c).toInt := by
  simp [sampleOf, hk]

/-! ## Pairs of filters (48_sequencer.md R160, R161, R168) -/

/-- Of two filters the one of a channel. -/
def ofChannel (vl vr : Svf) (c : Fin 2) : Svf := if c = 0 then vl else vr

theorem ofChannel_eq {g : Fin 2 → Svf} {vl vr : Svf} (hl : vl = g 0) (hr : vr = g 1) (c : Fin 2) : ofChannel vl vr c = g c := by
  revert c
  exact Fin.forall_fin_two.mpr ⟨hl, hr⟩

theorem svfRun_cons (v : Svf) (x : Int) (xs : List Int) : svfRun v (x :: xs) = svfRun (svfStep v x) xs := by
  rw [svfRun, List.foldl_cons, svfRun]

/-- A step of the filter of a channel is the step of each filter on its own sample of the frame. -/
theorem svfStep_ofChannel (vl vr : Svf) (f : Frame) (c : Fin 2) :
    svfStep (ofChannel vl vr c) (f.channel c).toInt = ofChannel (svfStep vl f.l.toInt) (svfStep vr f.r.toInt) c :=
  (ofChannel_eq (g := fun c => svfStep (ofChannel vl vr c) (f.channel c).toInt) rfl rfl c).symm

/-- The filter of a pair for a channel, as `svfOf` takes it from a state. -/
def svfPair (v : Vector Svf 8) (pair : Fin 4) (c : Fin 2) : Svf := v[(⟨2 * pair.val + c.val, by omega⟩ : Fin 8)]

theorem svfOf_eq (s : State) (pair : Fin 4) (c : Fin 2) : svfOf s pair c = svfPair s.svfs pair c := rfl

/-- Both filters of a pair written. -/
theorem svfPair_set (v : Vector Svf 8) (p q : Fin 4) (a b : Svf) (c : Fin 2) :
    svfPair ((v.set (2 * p.val) a).set (2 * p.val + 1) b) q c = if q = p then ofChannel a b c else svfPair v q c := by
  unfold svfPair ofChannel
  rw [Fin.getElem_fin, Fin.getElem_fin]
  dsimp only
  by_cases hq : q = p
  · subst hq
    rw [if_pos rfl]
    revert c
    refine Fin.forall_fin_two.mpr ⟨?_, ?_⟩
    · exact (Vector.getElem_set_ne _ _ (by simp)).trans (Vector.getElem_set_self _)
    · exact Vector.getElem_set_self _
  · have hne : q.val ≠ p.val := fun e => hq (Fin.ext e)
    rw [if_neg hq, Vector.getElem_set_ne _ _ (by omega), Vector.getElem_set_ne _ _ (by omega)]

theorem shr_one (m : Int) : m >>> (1 : Int) = m / 2 := (Int.shiftRight_natCast_right m 1).trans (Int.shiftRight_eq_div_pow m 1)

/-- The mean of two samples is a sample: the downmix of step 3 and the half-way sample of step 5b. -/
theorem toInt_mean (a b : Half) : (toHalf ((a.toInt + b.toInt) >>> 1)).toInt = (a.toInt + b.toInt) / 2 := by
  have ha := a.le_toInt
  have ha' := a.toInt_lt
  have hb := b.le_toInt
  have hb' := b.toInt_lt
  rw [shr_one]
  exact toInt_toHalf (by omega) (by omega)

/-! ## The downmix (48_sequencer.md R159) -/

theorem downmixFrame_channel (mono : Bool) (f : Frame) (c : Fin 2) :
    ((downmixFrame mono f).channel c).toInt = if mono then (f.l.toInt + f.r.toInt) / 2 else (f.channel c).toInt := by
  unfold downmixFrame
  split
  · unfold Frame.channel
    split <;> exact toInt_mean ..
  · rfl

theorem downmix_length (s : State) : (downmix s).length = s.blockSize := by
  rw [downmix, List.length_map, Vector.length_toList]

theorem sampleOf_downmix (s : State) (c : Fin 2) {k : Nat} (hk : k < s.blockSize) :
    sampleOf (downmix s) c k = downmixedSample s c k := by
  rw [downmix, sampleOf_map _ (by simpa using hk), downmixFrame_channel, downmixedSample, ← sampleOf_blockOf hk,
    ← sampleOf_blockOf hk s.inbuf 1, ← sampleOf_blockOf hk s.inbuf c]
  rfl

/-! ## The feedback (48_sequencer.md R160) -/

theorem feedbackGain_eq (fb lp : Half) : feedbackGain fb lp = (fb.toNat : Int) * (32768 - (lp.toNat : Int)) / 32768 := by
  rw [feedbackGain, shr_ofNat]
  rfl

/-- One sample of step 4, by its channel's filter after its own input. -/
theorem sampleOf_feedbackBlock (gain : Int) (vl vr : Svf) (fs ws : List Frame) (h : fs.length = ws.length) (c : Fin 2) {k : Nat}
    (hk : k < ws.length) :
    sampleOf (feedbackBlock gain vl vr fs ws).2.2 c k =
      sat16 (sampleOf ws c k + gain * softLimit (svfRun (ofChannel vl vr c) (samplesOf fs c (k + 1))).hp.toInt / 32768) := by
  induction fs generalizing vl vr ws k with
  | nil => cases ws with
    | nil => exact absurd hk (Nat.not_lt_zero k)
    | cons w ws => exact nomatch h
  | cons f fs ih => cases ws with
    | nil => exact nomatch h
    | cons w ws =>
      rw [samplesOf_cons_succ]
      cases k with
      | zero =>
        have hsample (v : Svf) (x y : Half) : (feedbackSample gain v x y).2.toInt =
            sat16 (y.toInt + gain * softLimit (svfStep v x.toInt).hp.toInt / 32768) := by
          rw [feedbackSample, toInt_toHalf_sat16, shr_ofNat]
          rfl
        clear ih
        revert c
        exact Fin.forall_fin_two.mpr ⟨hsample vl f.l w.l, hsample vr f.r w.r⟩
      | succ k =>
        rw [svfRun_cons, svfStep_ofChannel]
        exact ih (svfStep vl f.l.toInt) (svfStep vr f.r.toInt) ws (by simpa using h) (by simpa using hk)

section

variable (s : State)

/-- Step 4 on the downmixed block. -/
theorem feedbackStage_length : (feedbackStage s (downmix s)).2.length = s.blockSize := by
  have h := feedbackBlock_filters (feedbackGain s.p[7] (freezeFollow s.frozen s.freezeLp))
    (svfSet s.svfs[0] (feedbackCutoff s.sr) 65536) (svfSet s.svfs[1] (feedbackCutoff s.sr) 65536)
    (blockOf s.blockSize s.fbbuf).toList (downmix s) (by rw [downmix_length, Vector.length_toList])
  exact h.2.2.trans (downmix_length s)

theorem samplesOf_fbbuf (c : Fin 2) {k : Nat} (hk : k ≤ s.blockSize) :
    samplesOf (blockOf s.blockSize s.fbbuf).toList c k = samplesOf s.fbbuf c k :=
  samplesOf_eq_map fun j hj => sampleOf_blockOf (by omega) s.fbbuf c

theorem sampleOf_feedbackStage (c : Fin 2) {k : Nat} (hk : k < s.blockSize) :
    sampleOf (feedbackStage s (downmix s)).2 c k = blendedSample s c k := by
  have h := sampleOf_feedbackBlock (feedbackGain s.p[7] (freezeFollow s.frozen s.freezeLp))
    (svfSet s.svfs[0] (feedbackCutoff s.sr) 65536) (svfSet s.svfs[1] (feedbackCutoff s.sr) 65536)
    (blockOf s.blockSize s.fbbuf).toList (downmix s) (by rw [downmix_length, Vector.length_toList]) c
    (by rwa [downmix_length])
  refine h.trans ?_
  rw [sampleOf_downmix s c hk, feedbackGain_eq, samplesOf_fbbuf s c hk]
  unfold ofChannel
  revert c
  exact Fin.forall_fin_two.mpr ⟨fun _ => rfl, fun _ => rfl⟩

/-- Step 4 runs the two feedback filters once for each sample of `FBBUF` and leaves the other pairs. -/
theorem svfOf_feedbackStage (pair : Fin 4) (c : Fin 2) :
    svfOf (feedbackStage s (downmix s)).1 pair c = if pair = 0 then feedbackFilter s c s.blockSize else svfOf s pair c := by
  obtain ⟨hl, hr, -⟩ := feedbackBlock_filters (feedbackGain s.p[7] (freezeFollow s.frozen s.freezeLp))
    (svfSet s.svfs[0] (feedbackCutoff s.sr) 65536) (svfSet s.svfs[1] (feedbackCutoff s.sr) 65536)
    (blockOf s.blockSize s.fbbuf).toList (downmix s) (by rw [downmix_length, Vector.length_toList])
  have hall (c : Fin 2) : (blockOf s.blockSize s.fbbuf).toList.map (fun f => (f.channel c).toInt) =
      samplesOf s.fbbuf c s.blockSize := by
    rw [← samplesOf_length, Vector.length_toList, samplesOf_fbbuf s c le_rfl]
  refine (svfPair_set s.svfs 0 pair _ _ c).trans (congrArg (ite _ · _) ?_)
  rw [hl, hr]
  unfold feedbackFilter
  rw [← hall]
  revert c
  exact Fin.forall_fin_two.mpr ⟨rfl, rfl⟩

end

/-! ## The decimator (48_sequencer.md R161) -/

/-- One sample of step 5a in low fidelity, by its channel's filter after its own pair of inputs. -/
theorem sampleOf_decimateBlock (vl vr : Svf) (n : Nat) (ws : List Frame) (h : ws.length = 2 * n) (c : Fin 2) {j : Nat}
    (hj : j < n) :
    sampleOf (decimateBlock vl vr ws).2.2 c j =
      sat16 (svfRun (ofChannel vl vr c) (samplesOf ws c (2 * j + 2))).lp.toInt := by
  induction n generalizing vl vr ws j with
  | zero => exact absurd hj (Nat.not_lt_zero j)
  | succ n ih =>
    match ws, h with
    | f :: g :: rest, h =>
      rw [samplesOf_cons_succ, samplesOf_cons_succ]
      cases j with
      | zero =>
        clear ih
        revert c
        exact Fin.forall_fin_two.mpr ⟨toInt_toHalf_sat16 _, toInt_toHalf_sat16 _⟩
      | succ j =>
        rw [svfRun_cons, svfStep_ofChannel, svfRun_cons, svfStep_ofChannel]
        exact ih _ _ rest (by simp at h; omega) (Nat.lt_of_succ_lt_succ hj)

/-- A block has an even number of frames (00_scope.md R8). -/
theorem blockSize_even (s : State) : s.blockSize = 2 * (s.blockSize / 2) := by
  have h : s.blockSize % 2 = 0 := (blockSize_bounds s.hw).1
  omega

section

variable (s : State)

theorem decimateStage_full (h : s.lofi = false) (w : List Frame) : decimateStage s w = (s, w) := by
  rw [decimateStage, h]
  rfl

/-- Step 5a in low fidelity: the block it keeps and the filters it runs. -/
theorem decimateStage_half (h : s.lofi = true) {w : List Frame} {n : Nat} (hw : w.length = 2 * n) :
    (decimateStage s w).2.length = n ∧
      (∀ c, ∀ j < n, sampleOf (decimateStage s w).2 c j =
        sat16 (svfRun (svfSet (svfOf s 1 c) 12288 46341) (samplesOf w c (2 * j + 2))).lp.toInt) ∧
      ∀ pair c, svfOf (decimateStage s w).1 pair c =
        if pair = 1 then svfRun (svfSet (svfOf s 1 c) 12288 46341) (samplesOf w c w.length) else svfOf s pair c := by
  have hset (c : Fin 2) : ofChannel (svfSet s.svfs[2] Config.fidF Config.fidQ) (svfSet s.svfs[3] Config.fidF Config.fidQ) c =
      svfSet (svfOf s 1 c) 12288 46341 := ofChannel_eq (g := fun c => svfSet (svfOf s 1 c) 12288 46341) rfl rfl c
  obtain ⟨hl, hr, hlen⟩ := decimateBlock_filters (svfSet s.svfs[2] Config.fidF Config.fidQ)
    (svfSet s.svfs[3] Config.fidF Config.fidQ) n w hw
  rw [decimateStage, if_pos h]
  refine ⟨hlen, fun c j hj => ?_, fun pair c => ?_⟩
  · rw [← hset]
    exact sampleOf_decimateBlock _ _ n w hw c hj
  · refine (svfPair_set s.svfs 1 pair _ _ c).trans (congrArg (ite _ · _) ?_)
    rw [hl, hr, ← hset, samplesOf_length]
    revert c
    exact Fin.forall_fin_two.mpr ⟨rfl, rfl⟩

/-! ## Steps 3 to 6a -/

/-- Steps 3 to 5a keep half the frames in low fidelity, and the samples they keep are those of R161. -/
theorem processInput_samples :
    (processInput s).2.length = s.internalLength ∧
      ∀ c, ∀ j < s.internalLength, sampleOf (processInput s).2 c j = internalSample s c j := by
  have hlen := feedbackStage_length s
  have hpair := fun c => svfOf_feedbackStage s 1 c
  have hblended := fun c k (hk : k < s.blockSize) => sampleOf_feedbackStage s c hk
  show (decimateStage (feedbackStage s (downmix s)).1 (feedbackStage s (downmix s)).2).2.length = _ ∧
    ∀ c, ∀ j < s.internalLength,
      sampleOf (decimateStage (feedbackStage s (downmix s)).1 (feedbackStage s (downmix s)).2).2 c j = _
  have hlofi : (feedbackStage s (downmix s)).1.lofi = s.lofi := rfl
  generalize feedbackStage s (downmix s) = a at *
  unfold State.internalLength internalSample
  cases h : s.lofi with
  | false =>
    rw [decimateStage_full a.1 (hlofi.trans h)]
    exact ⟨hlen, hblended⟩
  | true =>
    obtain ⟨hhalf, hsample, -⟩ := decimateStage_half a.1 (hlofi.trans h) (hlen.trans (blockSize_even s))
    refine ⟨hhalf, fun c j hj => ?_⟩
    have hle : 2 * j + 2 ≤ s.blockSize := by
      have := blockSize_even s
      simp only [if_true] at hj
      omega
    rw [hsample c j hj, hpair, if_neg (by decide), samplesOf_eq_map fun k hk => hblended c k (by omega)]
    rfl

/-- The block the ring buffers record and the spectral engine gets is the internal block. -/
theorem processInput_block : (processInput s).2 = internalBlock s s.internalLength :=
  eq_map_of_samples (processInput_samples s).1 (processInput_samples s).2

/-- Steps 3 to 6a run the feedback filters and, in low fidelity, the decimator's. -/
theorem svfOf_processInput (pair : Fin 4) (c : Fin 2) :
    svfOf (processInput s).1 pair c =
      if pair = 0 then feedbackFilter s c s.blockSize
      else if pair = 1 ∧ s.lofi = true then decimationFilter s c s.blockSize
      else svfOf s pair c := by
  have hlen := feedbackStage_length s
  have hpair := fun pair c => svfOf_feedbackStage s pair c
  have hblended := fun k (hk : k < s.blockSize) => sampleOf_feedbackStage s c hk
  show svfOf (decimateStage (feedbackStage s (downmix s)).1 (feedbackStage s (downmix s)).2).1 pair c = _
  have hlofi : (feedbackStage s (downmix s)).1.lofi = s.lofi := rfl
  generalize feedbackStage s (downmix s) = a at *
  cases h : s.lofi with
  | false => simp [decimateStage_full a.1 (hlofi.trans h), hpair]
  | true =>
    obtain ⟨-, -, hfilter⟩ := decimateStage_half a.1 (hlofi.trans h) (hlen.trans (blockSize_even s))
    rw [hfilter]
    by_cases h1 : pair = 1
    · rw [if_pos h1, if_neg (by simp [h1]), if_pos ⟨h1, rfl⟩, hpair, if_neg (by decide), hlen, samplesOf_eq_map hblended]
      rfl
    · rw [if_neg h1, hpair, if_neg (c := pair = 1 ∧ _) (fun e => h1 e.1)]

end

/-! ## The upsampler (48_sequencer.md R165) -/

theorem upsampleBlock_last (prev : Frame) (e : List Frame) :
    (upsampleBlock prev e).1 = e.getLastD prev := by
  induction e generalizing prev with
  | nil => rfl
  | cons f e ih => exact (ih f).trans (List.getLastD_cons ..).symm

/-- One sample of step 5b in low fidelity: every second one is the engine's, the others lie half-way. -/
theorem sampleOf_upsampleBlock (prev : Frame) (e : List Frame) (c : Fin 2) {k : Nat} (hk : k < 2 * e.length) :
    sampleOf (upsampleBlock prev e).2 c k =
      if k % 2 = 1 then sampleOf e c (k / 2)
      else if k = 0 then ((prev.channel c).toInt + sampleOf e c 0) / 2
      else (sampleOf e c (k / 2 - 1) + sampleOf e c (k / 2)) / 2 := by
  induction e generalizing prev k with
  | nil => exact absurd hk (Nat.not_lt_zero k)
  | cons f e ih =>
    match k with
    | 0 =>
      clear ih
      revert c
      exact Fin.forall_fin_two.mpr ⟨toInt_mean .., toInt_mean ..⟩
    | 1 => rfl
    | k + 2 =>
      have hrest : sampleOf (upsampleBlock prev (f :: e)).2 c (k + 2) = sampleOf (upsampleBlock f e).2 c k := rfl
      have hhalf : (k + 2) / 2 = k / 2 + 1 := by omega
      rw [hrest, ih f (by simp at hk; omega), hhalf, Nat.add_mod_right]
      by_cases hodd : k % 2 = 1
      · rw [if_pos hodd, if_pos hodd, sampleOf_cons_succ]
      · rw [if_neg hodd, if_neg hodd, if_neg (Nat.succ_ne_zero _), Nat.add_sub_cancel, sampleOf_cons_succ]
        by_cases hzero : k = 0
        · subst hzero
          rfl
        · obtain ⟨m, hm⟩ : ∃ m, k / 2 = m + 1 := ⟨k / 2 - 1, by omega⟩
          rw [if_neg hzero, hm, sampleOf_cons_succ]
          rfl

section

variable {s r : State} {e : List Frame}

/-- Step 5b makes of the internal block the block `U` of R165 and keeps its last frame in low fidelity. -/
theorem upsampleStage_values (hup : r.upPrev = s.upPrev) (hq : r.quality = s.quality)
    (hlen : e.length = s.internalLength) :
    (upsampleStage s.blockSize r e).2 = upsampledBlock s e s.blockSize ∧
      (upsampleStage s.blockSize r e).1.upPrev = if s.lofi then e.getD (s.internalLength - 1) ⟨0, 0⟩ else s.upPrev := by
  have hlofi : r.lofi = s.lofi := by rw [State.lofi, State.lofi, hq]
  unfold upsampleStage
  rw [hlofi, hup]
  cases h : s.lofi with
  | false =>
    refine ⟨blockOf_eq_ofFn fun c k hk => ?_, hup⟩
    rw [upsampledSample, if_pos h]
  | true =>
    unfold State.internalLength at *
    rw [if_pos h] at *
    have heven := blockSize_even s
    have hpos : 0 < s.blockSize := by
      have h : 2 ≤ s.blockSize := (blockSize_bounds s.hw).2.1
      omega
    refine ⟨blockOf_eq_ofFn fun c k hk => ?_, ?_⟩
    · rw [upsampledSample, if_neg (by simp [h])]
      exact sampleOf_upsampleBlock s.upPrev e c (by omega)
    · show (upsampleBlock s.upPrev e).1 = _
      have hlast : s.blockSize / 2 - 1 < e.length := by omega
      rw [upsampleBlock_last, if_pos rfl, List.getLastD_eq_getLast?, List.getLast?_eq_getElem?, hlen]
      simp [hlast]

end

/-! ## The tone shaping (48_sequencer.md R168) -/

/-- A channel of a block. -/
def channelOf (u : List Frame) (c : Fin 2) : List Half := u.map (·.channel c)

/-- The low-pass outputs of a channel: the inputs of the high-pass. -/
def lowPassOutputs (lp : Svf) (u : List Frame) (c : Fin 2) (k : Nat) : List Int :=
  (List.range k).map fun j => (svfRun lp (samplesOf u c (j + 1))).lp.toInt

theorem lowPassOutputs_cons (lp : Svf) (f : Frame) (u : List Frame) (c : Fin 2) (k : Nat) :
    lowPassOutputs lp (f :: u) c (k + 1) =
      (svfStep lp (f.channel c).toInt).lp.toInt :: lowPassOutputs (svfStep lp (f.channel c).toInt) u c k := by
  rw [lowPassOutputs, List.range_succ_eq_map, List.map_cons, List.map_map]
  simp only [samplesOf_cons_succ, Function.comp_def]
  rfl

/-- Step 9 on the first sample of a channel, then on the others. -/
theorem toneChannel_cons (lp hp : Svf) (x : Half) (xs : List Half) :
    toneChannel lp hp (x :: xs) =
      let lp' := svfStep lp x.toInt
      let hp' := svfStep hp lp'.lp.toInt
      ((toneChannel lp' hp' xs).1, (toneChannel lp' hp' xs).2.1,
        toHalf (sat16 hp'.hp.toInt) :: (toneChannel lp' hp' xs).2.2) := rfl

/-- Step 9 on one channel: both filters after the block, and each sample it keeps. -/
theorem toneChannel_values (lp hp : Svf) (u : List Frame) (c : Fin 2) :
    (toneChannel lp hp (channelOf u c)).1 = svfRun lp (samplesOf u c u.length) ∧
      (toneChannel lp hp (channelOf u c)).2.1 = svfRun hp (lowPassOutputs lp u c u.length) ∧
      (toneChannel lp hp (channelOf u c)).2.2.length = u.length ∧
      ∀ k < u.length, ((toneChannel lp hp (channelOf u c)).2.2.getD k 0).toInt =
        sat16 (svfRun hp (lowPassOutputs lp u c (k + 1))).hp.toInt := by
  induction u generalizing lp hp with
  | nil => exact ⟨rfl, rfl, rfl, fun k hk => absurd hk (Nat.not_lt_zero k)⟩
  | cons f u ih =>
    obtain ⟨hlow, hhigh, hlen, hsample⟩ := ih (svfStep lp (f.channel c).toInt)
      (svfStep hp (svfStep lp (f.channel c).toInt).lp.toInt)
    have hchannel : channelOf (f :: u) c = f.channel c :: channelOf u c := rfl
    rw [hchannel, toneChannel_cons, List.length_cons, samplesOf_cons_succ, lowPassOutputs_cons, svfRun_cons, svfRun_cons]
    refine ⟨hlow, hhigh, congrArg Nat.succ hlen, fun k hk => ?_⟩
    rw [lowPassOutputs_cons, svfRun_cons]
    cases k with
    | zero => exact toInt_toHalf_sat16 _
    | succ k => exact hsample k (Nat.lt_of_succ_lt_succ hk)

theorem sampleOf_zipFrames (ls rs : List Half) (h : ls.length = rs.length) (c : Fin 2) (k : Nat) :
    sampleOf (zipFrames ls rs) c k = ((if c = 0 then ls else rs).getD k 0).toInt := by
  induction ls generalizing rs k with
  | nil => cases rs with
    | nil =>
      revert c
      exact Fin.forall_fin_two.mpr ⟨rfl, rfl⟩
    | cons r rs => exact nomatch h
  | cons l ls ih => cases rs with
    | nil => exact nomatch h
    | cons r rs =>
      cases k with
      | zero =>
        clear ih
        revert c
        exact Fin.forall_fin_two.mpr ⟨rfl, rfl⟩
      | succ k =>
        have hrest := ih rs (by simpa using h) k
        clear ih
        revert c
        exact Fin.forall_fin_two.mpr ⟨id, id⟩

/-! The cutoffs and the Q with their shifts as floor divisions. -/

theorem toneLowPass_eq (s : State) : toneLowPass s.p[4].toNat = shapeLowCutoff s := by
  have htl : ((max s.p[4].toNat 16384 - 16384 : Nat) : Int) = max (s.p[4].toNat : Int) 16384 - 16384 := by omega
  simp only [toneLowPass, htl, shr_one, Nat.shiftRight_eq_div_pow]
  rfl

theorem toneHighPass_eq (s : State) : toneHighPass s.p[4].toNat = shapeHighCutoff s := by
  have hth : ((min s.p[4].toNat 16384 : Nat) : Int) = min (s.p[4].toNat : Int) 16384 := by omega
  simp only [toneHighPass, hth, shr_one, Nat.shiftRight_eq_div_pow]
  rfl

theorem toneQ_eq (s : State) : toneQ s.p[7].toNat (shapeLowCutoff s) = (shapeQ s).toNat := by
  simp only [toneQ, shr_ofNat]
  rfl

/-- Step 9 on one channel, with its own two filters. -/
def shapedChannel (s : State) (u : List Frame) (c : Fin 2) : Svf × Svf × List Half :=
  toneChannel (svfSet (svfOf s 2 c) (toneLowPass s.p[4].toNat) (toneQ s.p[7].toNat (toneLowPass s.p[4].toNat)))
    (svfSet (svfOf s 3 c) (toneHighPass s.p[4].toNat) 65536) (channelOf u c)

theorem toneStage_of_mode {n : Nat} {s : State} (hm : s.mode = .stretch ∨ s.mode = .loopingDelay) (u : Vector Frame n) :
    toneStage s u =
      ({ s with
          svfs := (((s.svfs.set 4 (shapedChannel s u.toList 0).1).set 5 (shapedChannel s u.toList 1).1).set 6
            (shapedChannel s u.toList 0).2.1).set 7 (shapedChannel s u.toList 1).2.1 },
        blockOf n (zipFrames (shapedChannel s u.toList 0).2.2 (shapedChannel s u.toList 1).2.2)) := by
  rw [toneStage, if_pos hm]
  rfl

/-- A channel of the cascade: the filters of pairs 2 and 3 after it, and its samples. -/
theorem shapedChannel_values (s : State) (u : List Frame) (c : Fin 2) :
    (shapedChannel s u c).1 = shapeLowFilter s u c u.length ∧ (shapedChannel s u c).2.1 = shapeHighFilter s u c u.length ∧
      (shapedChannel s u c).2.2.length = u.length ∧
      ∀ k < u.length, ((shapedChannel s u c).2.2.getD k 0).toInt = sat16 (shapeHighFilter s u c (k + 1)).hp.toInt := by
  rw [shapedChannel, toneLowPass_eq, toneHighPass_eq, toneQ_eq]
  exact toneChannel_values ..

/-- Step 9 in the two modes that have it: the filters of pairs 2 and 3, and the block of the cascade. -/
theorem toneStage_shaped {n : Nat} {s : State} (hm : s.mode = .stretch ∨ s.mode = .loopingDelay) (u : Vector Frame n) :
    (toneStage s u).2 = cascadedBlock s u ∧
      ∀ pair c, svfOf (toneStage s u).1 pair c =
        if pair = 3 then shapeHighFilter s u.toList c n
        else if pair = 2 then shapeLowFilter s u.toList c n
        else svfOf s pair c := by
  have hvalues := shapedChannel_values s u.toList
  rw [Vector.length_toList] at hvalues
  rw [toneStage_of_mode hm]
  refine ⟨blockOf_eq_ofFn (g := fun c k => sat16 (shapeHighFilter s u.toList c (k + 1)).hp.toInt) fun c k hk => ?_,
    fun pair c => ?_⟩
  · obtain ⟨-, -, hleft, -⟩ := hvalues 0
    obtain ⟨-, -, hright, -⟩ := hvalues 1
    obtain ⟨-, -, -, hsample⟩ := hvalues c
    rw [sampleOf_zipFrames _ _ (hleft.trans hright.symm), ← hsample k hk]
    revert c
    exact Fin.forall_fin_two.mpr ⟨fun _ => rfl, fun _ => rfl⟩
  · have hlow : ofChannel (shapedChannel s u.toList 0).1 (shapedChannel s u.toList 1).1 c = shapeLowFilter s u.toList c n :=
      ofChannel_eq (g := fun c => shapeLowFilter s u.toList c n) (hvalues 0).1 (hvalues 1).1 c
    have hhigh : ofChannel (shapedChannel s u.toList 0).2.1 (shapedChannel s u.toList 1).2.1 c =
        shapeHighFilter s u.toList c n :=
      ofChannel_eq (g := fun c => shapeHighFilter s u.toList c n) (hvalues 0).2.1 (hvalues 1).2.1 c
    rw [← hlow, ← hhigh]
    exact (svfPair_set _ 3 pair _ _ c).trans (congrArg (ite _ _) (svfPair_set s.svfs 2 pair _ _ c))

end Sys2Proof.Machine
end

section
/-! PROOFS. What a `PROCESS` records (48_sequencer.md R163): nothing in Spectral mode, a restarted fade while frozen, otherwise the
internal block from the cursors on, in mono to `RB[0]` alone. -/

namespace Sys2Proof.Machine

/-! ## One ring buffer (41_ring_buffer.md R86, R87) -/

/-- What an open write of the `n` samples `y` from `s` to `t` leaves in a ring buffer. -/
structure Records (s t : State) (i : Fin 2) (n : Nat) (y : Nat → Int) : Prop where
  ring : t.rings[i] = { s.rings[i] with wcur := t.rings[i].wcur, fade := t.rings[i].fade, tail := t.rings[i].tail }
  wcur : t.rings[i].wcur.toNat = (s.rings[i].wcur.toNat + n) % s.rings[i].n.toNat
  fade : t.rings[i].fade.toNat = s.rings[i].fade.toNat - n
  samples : ∀ k, k < n →
    rbLoad t i (writeIndex s.rings[i] k) = codedAs s.rings[i].enc
      (fadedValue s.rings[i].fade.toNat k (rbLoad s i (writeIndex s.rings[i] k)) (y k))
  tail : ∀ j : Fin 8, t.rings[i].tail[j].toInt = rbLoad t i j.val

section

variable {s t u : State} {i j : Fin 2} {n : Nat} {y : Nat → Int}

/-- What a write leaves depends on the registers of its ring buffer and on its samples only. -/
theorem Records.congr (h : Records s t i n y) (hroom : 8 ≤ s.rings[i].n.toNat) {s' t' : State}
    (hs : s'.rings[i] = s.rings[i]) (hsl : ∀ a < s.rings[i].n.toNat, rbLoad s' i a = rbLoad s i a)
    (ht : t'.rings[i] = t.rings[i]) (htl : ∀ a < s.rings[i].n.toNat, rbLoad t' i a = rbLoad t i a) : Records s' t' i n y := by
  obtain ⟨ring, wcur, fade, samples, tail⟩ := h
  have hindex (k : Nat) : writeIndex s.rings[i] k < s.rings[i].n.toNat := Nat.mod_lt _ (by omega)
  refine ⟨?_, ?_, ?_, fun k hk => ?_, fun k => ?_⟩
  · rw [hs, ht]
    exact ring
  · rw [hs, ht]
    exact wcur
  · rw [hs, ht]
    exact fade
  · rw [hs, hsl _ (hindex k), htl _ (hindex k)]
    exact samples k hk
  · rw [ht, htl _ (k.isLt.trans_le hroom)]
    exact tail k

theorem Records.of_values (h : Records s t i n y) {z : Nat → Int} (hz : ∀ k < n, y k = z k) : Records s t i n z :=
  ⟨h.ring, h.wcur, h.fade, fun k hk => hz k hk ▸ h.samples k hk, h.tail⟩

section

variable (h : MemOk s) (hb : s.rings[i].bound = true)

include h hb

theorem rbWrite_records {xs : List Half} (hlen : xs.length = n) (hn : n ≤ s.rings[i].n.toNat)
    (hy : ∀ k (hk : k < xs.length), xs[k].toInt = y k) : Records s (rbWrite s i xs true) i n y := by
  subst hlen
  obtain ⟨-, -, -, -, cursor, fade, -, -, -⟩ := h.rings.bound i hb
  have hwf := (h.arenas s.rings[i].space).canonical
  have hsame := (rbWrite_written s i xs true).sameRegion
  obtain ⟨hkeep, -⟩ := rbWrite_keep h hb xs true
  refine ⟨hsame.eq_with, rbWrite_wcur cursor xs, rbWrite_fade s i xs, fun k hk => ?_,
    (hkeep.rings.bound i (hsame.bound.trans hb)).tail⟩
  rw [← hy k hk]
  exact rbWrite_load cursor hwf fade hn hk

/-- The bytes of a write lie in the region. -/
theorem inRegion_of_inWrite {sp : Space} {x : Nat} (hx : inWrite s.rings[i] n sp x) : inRegion s.rings[i] sp x := by
  obtain ⟨-, -, samples, -, cursor, -, -, -, -⟩ := h.rings.bound i hb
  obtain ⟨rfl, k, -, hin⟩ := hx
  exact inRegion_of_inSample hb samples (Nat.mod_lt _ (Nat.zero_lt_of_lt cursor)) hin

theorem rbWrite_byte? {xs : List Half} (hlen : xs.length = n) {sp : Space} {x : Nat} (hx : ¬ inWrite s.rings[i] n sp x) :
    (rbWrite s i xs true).byte? sp x = s.byte? sp x :=
  rbWrite_byte?_other (h.rings.bound i hb).cursor (h.arenas _).canonical (hlen ▸ hx)

/-- A write leaves the samples of the other ring buffer. -/
theorem rbWrite_load_ring_other (hij : i ≠ j) (hbj : s.rings[j].bound = true) (xs : List Half) {a : Nat}
    (ha : a < s.rings[j].n.toNat) : rbLoad (rbWrite s i xs true) j a = rbLoad s j a := by
  refine rbLoad_congr ((rbWrite_written s i xs true).ring_other hij) fun x hx => ?_
  refine rbWrite_byte? h hb rfl fun hw => ?_
  exact h.rings.not_inRegion hij (inRegion_of_inSample hbj (h.rings.bound j hbj).samples ha hx) (inRegion_of_inWrite h hb hw)

end

/-! ## Both ring buffers (48_sequencer.md R163) -/

theorem recordStage_spectral (hm : s.mode = .spectral) (x : List Frame) : recordStage s x = s := if_pos hm

/-- While frozen the fades are restarted. -/
theorem recordStage_frozen (hm : s.mode ≠ .spectral) (hf : s.frozen = true) {x : List Frame} (hx : x ≠ []) :
    recordStage s x = if s.mono then s.refaded 0 else (s.refaded 0).refaded 1 := by
  have hwrite (r : State) (i : Fin 2) (g : Frame → Half) : rbWrite r i (x.map g) false = r.refaded i := by
    rw [rbWrite_frozen_eq, if_neg (by simpa using hx)]
  simp only [recordStage, if_neg hm, hf, Bool.not_true, hwrite]

theorem recordStage_mono (hm : s.mode ≠ .spectral) (hf : s.frozen = false) (hmono : s.mono = true) (x : List Frame) :
    recordStage s x = rbWrite s 0 (channelOf x 0) true := by
  rw [recordStage, if_neg hm, hf, if_pos hmono]
  rfl

theorem recordStage_stereo (hm : s.mode ≠ .spectral) (hf : s.frozen = false) (hmono : s.mono = false) (x : List Frame) :
    recordStage s x = rbWrite (rbWrite s 0 (channelOf x 0) true) 1 (channelOf x 1) true := by
  rw [recordStage, if_neg hm, hf, if_neg (by simp [hmono])]
  rfl

theorem channelOf_length (x : List Frame) (c : Fin 2) : (channelOf x c).length = x.length := List.length_map _

theorem channelOf_getElem (x : List Frame) (c : Fin 2) (k : Nat) (hk : k < (channelOf x c).length) :
    (channelOf x c)[k].toInt = sampleOf x c k := by
  have hk' : k < x.length := channelOf_length x c ▸ hk
  simp [channelOf, sampleOf, hk']

section

variable (h : MemOk s) (h0 : s.rings[0].bound = true) {x : List Frame} (hlen : x.length = n) (hn : n ≤ s.rings[0].n.toNat)
  (hm : s.mode ≠ .spectral) (hf : s.frozen = false)

include h h0 hlen hn hm hf

/-- Unfrozen in mono, `RB[0]` records the left channel and `RB[1]` stands. -/
theorem recordStage_mono_records (hmono : s.mono = true) :
    Records s (recordStage s x) 0 n (sampleOf x 0) ∧ (recordStage s x).rings[1] = s.rings[1] ∧
      ∀ sp a, ¬ inWrite s.rings[0] n sp a → (recordStage s x).byte? sp a = s.byte? sp a := by
  rw [recordStage_mono hm hf hmono]
  have hxs : (channelOf x 0).length = n := (channelOf_length x 0).trans hlen
  exact ⟨rbWrite_records h h0 hxs hn (channelOf_getElem x 0),
    (rbWrite_written s 0 (channelOf x 0) true).ring_other (j := 1) (by decide), fun sp a ha => rbWrite_byte? h h0 hxs ha⟩

/-- Unfrozen in stereo, each ring buffer records its channel: neither write touches the other's samples. -/
theorem recordStage_stereo_records (hmono : s.mono = false) (h1 : s.rings[1].bound = true)
    (hn1 : s.rings[1].n = s.rings[0].n) :
    Records s (recordStage s x) 0 n (sampleOf x 0) ∧ Records s (recordStage s x) 1 n (sampleOf x 1) ∧
      ∀ sp a, ¬ inWrite s.rings[0] n sp a → ¬ inWrite s.rings[1] n sp a → (recordStage s x).byte? sp a = s.byte? sp a := by
  rw [recordStage_stereo hm hf hmono]
  have hxs (c : Fin 2) : (channelOf x c).length = n := (channelOf_length x c).trans hlen
  have hroom (i : Fin 2) (hb : s.rings[i].bound = true) : 8 ≤ s.rings[i].n.toNat := (h.rings.bound i hb).room
  have hw0 := rbWrite_written s 0 (channelOf x 0) true
  have hrec0 := rbWrite_records (i := 0) (y := sampleOf x 0) h h0 (hxs 0) hn (channelOf_getElem x 0)
  have hload1 := fun a => rbWrite_load_ring_other (a := a) (i := 0) (j := 1) h h0 (by decide) h1 (channelOf x 0)
  have hbytes0 := fun sp a => rbWrite_byte? (sp := sp) (x := a) (i := 0) h h0 (hxs 0)
  obtain ⟨hmem, -⟩ := rbWrite_keep (i := 0) h h0 (channelOf x 0) true
  generalize rbWrite s 0 (channelOf x 0) true = u at *
  have hsame : SameRegion s.rings[0] u.rings[0] := hw0.sameRegion
  have hother : u.rings[(1 : Fin 2)] = s.rings[(1 : Fin 2)] := hw0.ring_other (by decide)
  have hb0 : u.rings[(0 : Fin 2)].bound = true := hsame.bound.trans h0
  have hb1 : u.rings[(1 : Fin 2)].bound = true := hother ▸ h1
  have hw1 := rbWrite_written u 1 (channelOf x 1) true
  have hn' : n ≤ u.rings[(1 : Fin 2)].n.toNat := by
    rw [hother]
    exact hn1 ▸ hn
  have hrec1 := rbWrite_records (y := sampleOf x 1) hmem hb1 (hxs 1) hn' (channelOf_getElem x 1)
  refine ⟨hrec0.congr (hroom 0 h0) rfl (fun _ _ => rfl) (hw1.ring_other (by decide)) fun a ha =>
      rbWrite_load_ring_other hmem hb1 (by decide) hb0 _ (hsame.n ▸ ha),
    hrec1.congr ?_ hother.symm (fun a ha => (hload1 a (hother ▸ ha)).symm) rfl fun _ _ => rfl,
    fun sp a ha0 ha1 => (rbWrite_byte? hmem hb1 (hxs 1) ?_).trans (hbytes0 sp a ha0)⟩
  · rw [hother]
    exact hroom 1 h1
  · rw [hother]
    exact ha1

end

/-- Two states with the same arenas and ring buffers. -/
structure SameMemory (s t : State) : Prop where
  large : t.large = s.large
  small : t.small = s.small
  rings : t.rings = s.rings

theorem SameMemory.byte?_eq (h : SameMemory s t) (sp : Space) (x : Nat) : t.byte? sp x = s.byte? sp x :=
  byte?_congr (by cases sp; exacts [h.large, h.small]) x

theorem SameMemory.rbLoad_eq (h : SameMemory s t) (i : Fin 2) (a : Nat) : rbLoad t i a = rbLoad s i a :=
  rbLoad_congr (by rw [h.rings]) fun x _ => h.byte?_eq _ x

theorem SameMemory.refl (s : State) : SameMemory s s := ⟨rfl, rfl, rfl⟩

theorem SameMemory.symm (h : SameMemory s t) : SameMemory t s := ⟨h.large.symm, h.small.symm, h.rings.symm⟩

/-- A record between states that agree on arenas and ring buffers. -/
theorem SameMemory.records {s' t' : State} (hs : SameMemory s s') (ht : SameMemory t t') (h : Records s t i n y)
    (hroom : 8 ≤ s.rings[i].n.toNat) : Records s' t' i n y :=
  h.congr hroom (by rw [hs.rings]) (fun a _ => hs.rbLoad_eq i a) (by rw [ht.rings]) fun a _ => ht.rbLoad_eq i a

/-! ## The block (48_sequencer.md R159 to R161, R163) -/

theorem sameMemory_processInput (s : State) : SameMemory s (processInput s).1 := by
  rw [processInput_eq]
  exact ⟨rfl, rfl, rfl⟩

theorem sameMemory_processBlock (s : State) : SameMemory (engineState s) (processBlock s) :=
  ⟨(sameSound_processBlock s).large, (sameSound_processBlock s).small, (sameSound_processBlock s).rings⟩

/-- The internal block is not empty and at most 256 frames long (00_scope.md R8). -/
theorem internalLength_bounds (s : State) : 0 < s.internalLength ∧ s.internalLength ≤ 256 := by
  obtain ⟨-, hlo, hhi⟩ := blockSize_bounds s.hw
  have hlo : 2 ≤ s.blockSize := hlo
  have hhi : s.blockSize ≤ 256 := hhi
  unfold State.internalLength
  split <;> omega

/-- Steps 3 to 6a keep the mode, the channels and the freeze flag. -/
theorem processInput_controls (s : State) :
    (processInput s).1.mode = s.mode ∧ (processInput s).1.mono = s.mono ∧ (processInput s).1.frozen = s.frozen := by
  rw [processInput_eq]
  exact ⟨rfl, rfl, rfl⟩

/-- In Spectral mode nothing is recorded (46_spectral.md R133). -/
theorem engineState_spectral (hm : s.mode = .spectral) : SameMemory s (engineState s) := by
  rw [engineState, recordStage_spectral ((processInput_controls s).1.trans hm)]
  exact sameMemory_processInput s

/-- While frozen no byte changes and the fades are restarted (41_ring_buffer.md R94). -/
theorem engineState_frozen (hm : s.mode ≠ .spectral) (hf : s.frozen = true) :
    (∀ sp x, (engineState s).byte? sp x = s.byte? sp x) ∧ (engineState s).rings[0] = { s.rings[0] with fade := 64 } ∧
      (engineState s).rings[1] = if s.mono then s.rings[1] else { s.rings[1] with fade := 64 } := by
  obtain ⟨hmode, hmono, hfrozen⟩ := processInput_controls s
  have hin := sameMemory_processInput s
  have hx : (processInput s).2 ≠ [] := by
    rw [ne_eq, ← List.length_eq_zero_iff, (processInput_samples s).1]
    exact (internalLength_bounds s).1.ne'
  rw [engineState, recordStage_frozen (hmode ▸ hm) (hfrozen.trans hf) hx, hmono, ← hin.rings]
  have hbyte := hin.byte?_eq
  generalize (processInput s).1 = r at hbyte ⊢
  have hself (r : State) (i : Fin 2) : (r.refaded i).rings[i] = { r.rings[i] with fade := 64 } := State.withRing_get_self ..
  have hother (r : State) {i j : Fin 2} (h : i ≠ j) : (r.refaded i).rings[j] = r.rings[j] := State.withRing_get_other _ h _
  have hkeep (r : State) (i : Fin 2) (sp : Space) (x : Nat) : (r.refaded i).byte? sp x = r.byte? sp x :=
    State.withRing_byte? ..
  cases s.mono with
  | true => exact ⟨fun sp x => (hkeep r 0 sp x).trans (hbyte sp x), hself r 0, hother r (j := 1) (by decide)⟩
  | false =>
    refine ⟨fun sp x => ?_, ?_, ?_⟩
    · exact (hkeep _ 1 sp x).trans ((hkeep r 0 sp x).trans (hbyte sp x))
    · exact (hother _ (i := 1) (j := 0) (by decide)).trans (hself r 0)
    · refine (hself _ 1).trans ?_
      rw [hother r (i := 0) (j := 1) (by decide)]
      rfl

section

variable (h : MemOk s) (h0 : s.rings[0].bound = true) (hn : s.internalLength ≤ s.rings[0].n.toNat) (hm : s.mode ≠ .spectral)
  (hf : s.frozen = false)

include h h0 hn hm hf

/-- Unfrozen in mono, `RB[0]` records the left channel of the internal block. -/
theorem engineState_mono_records (hmono : s.mono = true) :
    Records s (engineState s) 0 s.internalLength (internalSample s 0) ∧ (engineState s).rings[1] = s.rings[1] ∧
      ∀ sp x, ¬ inWrite s.rings[0] s.internalLength sp x → (engineState s).byte? sp x = s.byte? sp x := by
  obtain ⟨hmode, hmono', hfrozen⟩ := processInput_controls s
  obtain ⟨hlen, hsample⟩ := processInput_samples s
  have hin := sameMemory_processInput s
  have hmem := h.congr hin.large hin.small hin.rings
  have hroom := (hmem.rings.bound 0 (by rw [hin.rings]; exact h0)).room
  obtain ⟨hrec, hring, hbytes⟩ := recordStage_mono_records hmem (by rwa [hin.rings]) hlen (by rwa [hin.rings]) (hmode ▸ hm)
    (hfrozen.trans hf) (hmono'.trans hmono)
  have hrec := (hin.symm.records (.refl (engineState s)) hrec hroom).of_values (hsample 0)
  rw [hin.rings] at hring hbytes
  exact ⟨hrec, hring, fun sp x hx => (hbytes sp x hx).trans (hin.byte?_eq sp x)⟩

/-- Unfrozen in stereo, each ring buffer records its channel of the internal block. -/
theorem engineState_stereo_records (hmono : s.mono = false) (h1 : s.rings[1].bound = true)
    (hn1 : s.rings[1].n = s.rings[0].n) :
    Records s (engineState s) 0 s.internalLength (internalSample s 0) ∧
      Records s (engineState s) 1 s.internalLength (internalSample s 1) ∧
      ∀ sp x, ¬ inWrite s.rings[0] s.internalLength sp x → ¬ inWrite s.rings[1] s.internalLength sp x →
        (engineState s).byte? sp x = s.byte? sp x := by
  obtain ⟨hmode, hmono', hfrozen⟩ := processInput_controls s
  obtain ⟨hlen, hsample⟩ := processInput_samples s
  have hin := sameMemory_processInput s
  have hmem := h.congr hin.large hin.small hin.rings
  have hroom (i : Fin 2) (hb : s.rings[i].bound = true) := (hmem.rings.bound i (by rwa [hin.rings])).room
  obtain ⟨hrec0, hrec1, hbytes⟩ := recordStage_stereo_records hmem (by rwa [hin.rings]) hlen (by rwa [hin.rings])
    (hmode ▸ hm) (hfrozen.trans hf) (hmono'.trans hmono) (by rwa [hin.rings]) (by rwa [hin.rings])
  have hrec0 := (hin.symm.records (.refl (engineState s)) hrec0 (hroom 0 h0)).of_values (hsample 0)
  have hrec1 := (hin.symm.records (.refl (engineState s)) hrec1 (hroom 1 h1)).of_values (hsample 1)
  rw [hin.rings] at hbytes
  exact ⟨hrec0, hrec1, fun sp x hx0 hx1 => (hbytes sp x hx0 hx1).trans (hin.byte?_eq sp x)⟩

end

/-- Settles O55: the state after steps 3 to 6a records the internal block, and the steps after it leave arenas and ring buffers. -/
theorem processRecordsTheBlock : Obligations.ProcessRecordsTheBlock := by
  unfold Obligations.ProcessRecordsTheBlock
  intro s size hinv hf hi hb hs hst hsize
  refine ⟨_, exec_process_of_gate_open hf hi hb hs hst hsize, ?_⟩
  have hafter : SameMemory (engineState s) { processBlock s with resp := none, cmdcnt := (processBlock s).cmdcnt + 1 } :=
    have h := sameMemory_processBlock s
    ⟨h.large, h.small, h.rings⟩
  generalize { processBlock s with resp := none, cmdcnt := (processBlock s).cmdcnt + 1 } = t at hafter ⊢
  have hbyte := hafter.byte?_eq
  refine ⟨fun hm => ?_, fun hm hfr => ?_, fun hm hfr => ?_⟩
  · have hsame := engineState_spectral hm
    exact ⟨hafter.rings.trans hsame.rings, fun sp x => (hbyte sp x).trans (hsame.byte?_eq sp x)⟩
  · obtain ⟨hbytes, hleft, hright⟩ := engineState_frozen hm hfr
    rw [hafter.rings]
    exact ⟨fun sp x => (hbyte sp x).trans (hbytes sp x), hleft, hright⟩
  · have hmem : MemOk s := (inv_iff.mp hinv).1.mem
    obtain ⟨h0, -, hroom⟩ := hinv.ready.left hi hst.1
    have hright := hinv.ready.right hi hst.1
    have hn : s.internalLength ≤ s.rings[0].n.toNat :=
      (internalLength_bounds s).2.trans (le_trans (by decide) hroom)
    cases hmono : s.mono with
    | true =>
      obtain ⟨hrec, hring, hbytes⟩ := engineState_mono_records hmem h0 hn hm hfr hmono
      obtain ⟨ring, wcur, fade, samples, tail⟩ := SameMemory.records (.refl s) hafter hrec (hmem.rings.bound 0 h0).room
      refine ⟨ring, wcur, fade, samples, tail, fun _ => ⟨by rw [hafter.rings, hring], fun sp x hx =>
        (hbyte sp x).trans (hbytes sp x hx)⟩, fun hc => absurd (hmono.symm.trans hc) Bool.true_eq_false.mp⟩
    | false =>
      obtain ⟨h1, -, hn1⟩ := hright hmono
      obtain ⟨hrec0, hrec1, hbytes⟩ := engineState_stereo_records hmem h0 hn hm hfr hmono h1 hn1
      obtain ⟨ring, wcur, fade, samples, tail⟩ := SameMemory.records (.refl s) hafter hrec0 (hmem.rings.bound 0 h0).room
      obtain ⟨ring1, wcur1, fade1, samples1, tail1⟩ := SameMemory.records (.refl s) hafter hrec1 (hmem.rings.bound 1 h1).room
      exact ⟨ring, wcur, fade, samples, tail, fun hc => absurd (hmono.symm.trans hc) Bool.false_ne_true, fun _ =>
        ⟨ring1, wcur1, fade1, samples1, tail1, fun sp x hx0 hx1 => (hbyte sp x).trans (hbytes sp x hx0 hx1)⟩⟩

end

end Sys2Proof.Machine
end

section
/-! PROOFS. The units a `PROCESS` runs (48_sequencer.md R156): the state each stage starts from, the engine of the committed mode, the
steps after it, and which registers each of them leaves alone. -/

namespace Sys2Proof.Machine

section

variable (s : State)

/-! ## The engine (48_sequencer.md R164) -/

/-- The state step 6c leaves. -/
def playedState (s : State) : State := (playStage (engineState s) (processInput s).2).1

theorem engineBlock_eq_playStage : engineBlock s = (playStage (engineState s) (processInput s).2).2 := rfl

/-- What the engine finds of the state before the block: everything but the follower, the filters, the derived parameters and what was
recorded. -/
theorem engineState_fields :
    (engineState s).mode = s.mode ∧ (engineState s).kparams = ⟨s.p, (processBlock s).drv⟩ ∧
      (engineState s).kernels = s.kernels ∧ (engineState s).search = s.search ∧ (engineState s).loopSync = s.loopSync ∧
      (engineState s).upPrev = s.upPrev ∧ (engineState s).quality = s.quality := by
  have hdrv : (processBlock s).drv = (engineState s).drv := (sameSound_processBlock s).drv
  rw [hdrv]
  rw [engineState_eq]
  exact ⟨rfl, rfl, rfl, rfl, rfl, rfl, rfl⟩

theorem playStage_stretch {r : State} (hm : r.mode = .stretch) (x : List Frame) :
    playStage r x = stretchPlay r r.internalLength := by
  unfold playStage
  rw [hm]

theorem playStage_loopingDelay {r : State} (hm : r.mode = .loopingDelay) (x : List Frame) :
    playStage r x = loopPlay r r.internalLength := by
  unfold playStage
  rw [hm]

theorem playStage_spectral {r : State} (hm : r.mode = .spectral) (x : List Frame) :
    playStage r x = spectralPlay r x r.internalLength := by
  unfold playStage
  rw [hm]

/-- The engine plays a block of the internal length. -/
theorem playStage_length (r : State) (x : List Frame) : (playStage r x).2.length = r.internalLength := by
  cases hm : r.mode with
  | granular =>
    rw [playStage_granular hm, grainPlay_eq, grainSynth_frames]
    simp
  | stretch =>
    rw [playStage_stretch hm]
    exact Vector.length_toList
  | loopingDelay =>
    rw [playStage_loopingDelay hm]
    exact Vector.length_toList
  | spectral =>
    rw [playStage_spectral hm]
    exact Vector.length_toList

theorem engineBlock_length : (engineBlock s).length = s.internalLength :=
  (playStage_length ..).trans (engineState_internalLength s)

/-- The units of the engines (48_sequencer.md R164): each mode runs its own and leaves those of the others. -/
theorem playStage_units (r : State) (x : List Frame) :
    (r.mode ≠ .granular → (playStage r x).1.grains = r.grains) ∧
      (r.mode ≠ .stretch → (playStage r x).1.search = r.search ∧ (playStage r x).1.kernels.wsola = r.kernels.wsola) ∧
      (r.mode ≠ .loopingDelay → (playStage r x).1.loopSync = r.loopSync ∧ (playStage r x).1.kernels.loop = r.kernels.loop) ∧
      (r.mode ≠ .spectral → (playStage r x).1.kernels.pv = r.kernels.pv) ∧
      (playStage r x).1.kernels.diff = r.kernels.diff ∧ (playStage r x).1.kernels.ps = r.kernels.ps ∧
      (playStage r x).1.kernels.rev = r.kernels.rev := by
  unfold playStage
  split <;> rename_i hm <;> simp [hm, stretchPlay, loopPlay, spectralPlay]

/-! ## Steps 7 to 12 (48_sequencer.md R166 to R171) -/

section

variable {n : Nat} (r : State) (u : Vector Frame n)

/-- The block after step 7. -/
def diffusedBlock : Vector Frame n :=
  if r.mode = .spectral then u else (Config.diffProcess r.kernels.diff r.drv.diff n u).2

theorem diffuseStage_values :
    diffuseStage r u =
      ({ r with
          kernels :=
            { r.kernels with
              diff := if r.mode = .spectral then r.kernels.diff
                else (Config.diffProcess r.kernels.diff r.drv.diff n u).1 } },
        diffusedBlock r u) := by
  unfold diffuseStage diffusedBlock
  split <;> rfl

/-- Step 8 runs the pitch shifter: in Looping Delay, unless frozen and not synchronised. -/
abbrev shiftsPitch (r : State) : Prop := r.mode = .loopingDelay ∧ (r.frozen = false ∨ r.loopSync = true)

/-- What step 8 makes of a block where it runs. -/
def pitchShifted : KernelState × Vector Frame n := Config.psProcess r.kernels.ps (pitchRatio r.p[2].toInt) r.p[1] n u

theorem pitchStage_values :
    pitchStage r u =
      ({ r with kernels := { r.kernels with ps := if shiftsPitch r then (pitchShifted r u).1 else r.kernels.ps } },
        if shiftsPitch r then (pitchShifted r u).2 else u) := by
  unfold pitchStage
  split <;> rfl

/-- The block after step 8. -/
def pitchedBlock : Vector Frame n := if shiftsPitch r then (pitchShifted r (diffusedBlock r u)).2 else diffusedBlock r u

/-- The block after step 9, which `FBBUF` keeps. -/
def shapedBlock : Vector Frame n :=
  if r.mode = .stretch ∨ r.mode = .loopingDelay then cascadedBlock r (pitchedBlock r u) else pitchedBlock r u

/-- Step 9 runs on the filters and the parameters, not on the kernels. -/
theorem toneStage_kernels (k : Kernels) :
    (toneStage { r with kernels := k } u).2 = (toneStage r u).2 ∧
      (toneStage { r with kernels := k } u).1 = { (toneStage r u).1 with kernels := k } := by
  unfold toneStage
  split <;> exact ⟨rfl, rfl⟩

theorem toneStage_block :
    (toneStage r u).2 = if r.mode = .stretch ∨ r.mode = .loopingDelay then cascadedBlock r u else u := by
  split
  · exact (toneStage_shaped ‹_› u).1
  · rw [toneStage, if_neg ‹_›]

/-- The filters of pairs 2 and 3 run in Stretch and Looping Delay. -/
theorem svfOf_toneStage (pair : Fin 4) (c : Fin 2) :
    svfOf (toneStage r u).1 pair c =
      if r.mode = .stretch ∨ r.mode = .loopingDelay then
        if pair = 3 then shapeHighFilter r u.toList c n
        else if pair = 2 then shapeLowFilter r u.toList c n
        else svfOf r pair c
      else svfOf r pair c := by
  split
  · exact (toneStage_shaped ‹_› u).2 pair c
  · rw [toneStage, if_neg ‹_›]

/-- What steps 7 to 12 leave in `FBBUF`, the kernels and the filters. -/
theorem processEffects_values :
    (processEffects r u).fbbuf = (shapedBlock r u).toList ∧
      (processEffects r u).kernels =
        { r.kernels with
          diff := if r.mode = .spectral then r.kernels.diff else (Config.diffProcess r.kernels.diff r.drv.diff n u).1
          ps := if shiftsPitch r then (pitchShifted r (diffusedBlock r u)).1 else r.kernels.ps
          rev := (Config.revProcess r.kernels.rev r.drv.reverb r.p[7] n (shapedBlock r u)).1 } ∧
      (processEffects r u).svfs = (toneStage r (pitchedBlock r u)).1.svfs := by
  obtain ⟨v, hkept⟩ : ∃ v, (toneStage r (pitchedBlock r u)).1 = { r with svfs := v } := ⟨_, toneStage_eq ..⟩
  have hpitch (d : KernelState) : pitchStage { r with kernels := { r.kernels with diff := d } } (diffusedBlock r u) =
      ({ r with
          kernels :=
            { r.kernels with
              diff := d
              ps := if shiftsPitch r then (pitchShifted r (diffusedBlock r u)).1 else r.kernels.ps } },
        pitchedBlock r u) := pitchStage_values ..
  have htone (k : Kernels) : toneStage { r with kernels := k } (pitchedBlock r u) =
      ({ r with svfs := v, kernels := k }, shapedBlock r u) := by
    obtain ⟨hblock, hstate⟩ := toneStage_kernels r (pitchedBlock r u) k
    rw [hkept] at hstate
    exact Prod.ext hstate (hblock.trans (toneStage_block ..))
  rw [hkept]
  simp only [processEffects, diffuseStage_values, hpitch, htone]
  exact ⟨rfl, rfl, rfl⟩

end

/-! ## The state before step 7 -/

/-- The state step 5b leaves. -/
def effectsState (s : State) : State := (upsampleStage s.blockSize (playedState s) (engineBlock s)).1

theorem playedState_eq :
    playedState s =
      { engineState s with
        grains := (playedState s).grains
        search := (playedState s).search
        kernels := (playedState s).kernels
        loopSync := (playedState s).loopSync } := playStage_eq ..

/-- Steps 7 to 12 run on the played block at the full rate. -/
theorem processBlock_eq_effects :
    processBlock s = processEffects (effectsState s) (upsampledBlock s (engineBlock s) s.blockSize) ∧
      (effectsState s).upPrev = if s.lofi then (engineBlock s).getD (s.internalLength - 1) ⟨0, 0⟩ else s.upPrev := by
  obtain ⟨-, -, -, -, -, hup, hquality⟩ := engineState_fields s
  have hup : (playedState s).upPrev = s.upPrev := by rw [playedState_eq, hup]
  have hquality : (playedState s).quality = s.quality := by rw [playedState_eq, hquality]
  obtain ⟨hblock, hlast⟩ := upsampleStage_values hup hquality (engineBlock_length s)
  refine ⟨?_, hlast⟩
  rw [← hblock]
  rfl

/-- What steps 7 to 12 find of the state before the block. -/
structure BeforeEffects (s r t : State) : Prop where
  mode : r.mode = s.mode
  params : r.p = s.p
  drv : r.drv = t.drv
  loopSync : r.loopSync = t.loopSync
  diff : r.kernels.diff = s.kernels.diff
  ps : r.kernels.ps = s.kernels.ps
  rev : r.kernels.rev = s.kernels.rev
  svfs : ∀ pair c, svfOf r pair c = svfOf (processInput s).1 pair c

theorem beforeEffects_processBlock : BeforeEffects s (effectsState s) (processBlock s) := by
  have heffects : effectsState s = { playedState s with upPrev := (effectsState s).upPrev } := upsampleStage_eq ..
  obtain ⟨hmode, hparams, hkernels, -⟩ := engineState_fields s
  obtain ⟨-, -, -, -, hdiff, hps, hrev⟩ := playStage_units (engineState s) (processInput s).2
  have hsvfs : (engineState s).svfs = (processInput s).1.svfs := by rw [engineState_eq]
  have hdrv : (effectsState s).drv = (processBlock s).drv := by
    rw [heffects, playedState_eq]
    exact congrArg KParams.drv hparams
  have hsync : (effectsState s).loopSync = (processBlock s).loopSync := by
    rw [(processBlock_eq_effects s).1, processEffects_eq]
  refine ⟨?_, ?_, hdrv, hsync, ?_, ?_, ?_, fun pair c => ?_⟩
  · rw [heffects, playedState_eq]
    exact hmode
  · rw [heffects, playedState_eq]
    exact congrArg KParams.p hparams
  · rw [heffects]
    exact hdiff.trans (by rw [hkernels])
  · rw [heffects]
    exact hps.trans (by rw [hkernels])
  · rw [heffects]
    exact hrev.trans (by rw [hkernels])
  · rw [heffects, playedState_eq, svfOf_eq, svfOf_eq, ← hsvfs]

/-- The engines' units stand after step 6c. -/
theorem processBlock_engine :
    (processBlock s).grains = (playedState s).grains ∧ (processBlock s).search = (playedState s).search ∧
      (processBlock s).loopSync = (playedState s).loopSync ∧
      (processBlock s).kernels.wsola = (playedState s).kernels.wsola ∧
      (processBlock s).kernels.pv = (playedState s).kernels.pv ∧
      (processBlock s).kernels.loop = (playedState s).kernels.loop ∧ (processBlock s).upPrev = (effectsState s).upPrev := by
  have heffects : effectsState s = { playedState s with upPrev := (effectsState s).upPrev } := upsampleStage_eq ..
  obtain ⟨-, hkernels, -⟩ := processEffects_values (effectsState s) (upsampledBlock s (engineBlock s) s.blockSize)
  rw [(processBlock_eq_effects s).1, hkernels, processEffects_eq, heffects]
  exact ⟨rfl, rfl, rfl, rfl, rfl, rfl, rfl⟩

/-! ## Each unit after the block -/

theorem SameMemory.rbViews_eq {s t : State} (h : SameMemory s t) : rbViews t = rbViews s := by
  simp only [rbViews, rbView, h.rings, h.rbLoad_eq]

/-- What the engine that runs gets: the ring buffers as recorded, the parameters of the block, its own state. -/
theorem engineState_arguments :
    rbViews (engineState s) = rbViews (processBlock s) ∧ (engineState s).kparams = ⟨s.p, (processBlock s).drv⟩ ∧
      (engineState s).kernels = s.kernels ∧ (engineState s).search = s.search ∧
      (engineState s).internalLength = s.internalLength := by
  obtain ⟨-, hparams, hkernels, hsearch, -⟩ := engineState_fields s
  exact ⟨(sameMemory_processBlock s).rbViews_eq.symm, hparams, hkernels, hsearch, engineState_internalLength s⟩

/-- Stretch: the search result is handed over and a post taken (45_wsola.md R126). -/
theorem processBlock_stretch (hm : s.mode = .stretch) :
    let out := Config.wsolaPlay s.kernels.wsola (rbViews (processBlock s)) ⟨s.p, (processBlock s).drv⟩ s.internalLength
      (searchResult s.search)
    (processBlock s).kernels.wsola = out.1 ∧ engineBlock s = out.2.1.toList ∧
      (processBlock s).search = searchAfterPlay s.search out.2.2 := by
  obtain ⟨-, hsearch, -, hwsola, -⟩ := processBlock_engine s
  obtain ⟨hviews, hparams, hkernels, hold, hlen⟩ := engineState_arguments s
  have hplay := playStage_stretch ((engineState_fields s).1.trans hm) (processInput s).2
  rw [hsearch, hwsola, engineBlock_eq_playStage, playedState, hplay, ← hviews, ← hparams, ← hkernels, ← hold, ← hlen]
  exact ⟨rfl, rfl, rfl⟩

/-- Looping Delay: the engine also says whether the loop is synchronised (48_sequencer.md R172). -/
theorem processBlock_loopingDelay (hm : s.mode = .loopingDelay) :
    let out := Config.loopPlay s.kernels.loop (rbViews (processBlock s)) ⟨s.p, (processBlock s).drv⟩ s.internalLength
    (processBlock s).kernels.loop = out.1 ∧ engineBlock s = out.2.1.toList ∧ (processBlock s).loopSync = out.2.2 := by
  obtain ⟨-, -, hsync, -, -, hloop, -⟩ := processBlock_engine s
  obtain ⟨hviews, hparams, hkernels, -, hlen⟩ := engineState_arguments s
  have hplay := playStage_loopingDelay ((engineState_fields s).1.trans hm) (processInput s).2
  rw [hsync, hloop, engineBlock_eq_playStage, playedState, hplay, ← hviews, ← hparams, ← hkernels, ← hlen]
  exact ⟨rfl, rfl, rfl⟩

/-- Spectral: the engine gets the internal block (46_spectral.md R133). -/
theorem processBlock_spectral (hm : s.mode = .spectral) :
    let out := Config.pvPlay s.kernels.pv ⟨s.p, (processBlock s).drv⟩ (internalBlock s s.internalLength) s.internalLength
    (processBlock s).kernels.pv = out.1 ∧ engineBlock s = out.2.toList := by
  obtain ⟨-, -, -, -, hpv, -, -⟩ := processBlock_engine s
  obtain ⟨-, hparams, hkernels, -, hlen⟩ := engineState_arguments s
  have hplay := playStage_spectral ((engineState_fields s).1.trans hm) (processInput s).2
  rw [hpv, engineBlock_eq_playStage, playedState, hplay, ← processInput_block, ← hparams, ← hkernels, ← hlen]
  exact ⟨rfl, rfl⟩

/-- The engines that do not run keep their units. -/
theorem processBlock_idle_engines :
    (s.mode ≠ .granular → (processBlock s).grains = s.grains) ∧
      (s.mode ≠ .stretch → (processBlock s).search = s.search ∧ (processBlock s).kernels.wsola = s.kernels.wsola) ∧
      (s.mode ≠ .loopingDelay → (processBlock s).loopSync = s.loopSync ∧ (processBlock s).kernels.loop = s.kernels.loop) ∧
      (s.mode ≠ .spectral → (processBlock s).kernels.pv = s.kernels.pv) := by
  obtain ⟨hgrains, hsearch, hsync, hwsola, hpv, hloop, -⟩ := processBlock_engine s
  obtain ⟨hmode, -, hkernels, hold, hsyncOld, -⟩ := engineState_fields s
  obtain ⟨h1, h2, h3, h4, -⟩ := playStage_units (engineState s) (processInput s).2
  rw [hmode, hkernels, hold, hsyncOld, engineState_grains] at *
  rw [hgrains, hsearch, hsync, hwsola, hpv, hloop]
  exact ⟨h1, h2, h3, h4⟩

/-- The cascade depends on the parameters and on the filters of pairs 2 and 3. -/
theorem shape_congr {r s : State} (hp : r.p = s.p) (hlow : ∀ c, svfOf r 2 c = svfOf s 2 c)
    (hhigh : ∀ c, svfOf r 3 c = svfOf s 3 c) :
    shapeLowFilter r = shapeLowFilter s ∧ shapeHighFilter r = shapeHighFilter s ∧
      ∀ {n : Nat} (u : Vector Frame n), cascadedBlock r u = cascadedBlock s u := by
  have hl : shapeLowFilter r = shapeLowFilter s := by
    funext u c k
    simp only [shapeLowFilter, shapeLowCutoff, shapeQ, hp, hlow]
  have hh : shapeHighFilter r = shapeHighFilter s := by
    funext u c k
    simp only [shapeHighFilter, shapeHighCutoff, hp, hhigh, hl]
  exact ⟨hl, hh, fun u => by simp only [cascadedBlock, hh]⟩

/-- The filters of pairs 2 and 3 stand before step 9. -/
theorem BeforeEffects.shape_eq {s r t : State} (h : BeforeEffects s r t) :
    shapeLowFilter r = shapeLowFilter s ∧ shapeHighFilter r = shapeHighFilter s ∧
      ∀ {n : Nat} (u : Vector Frame n), cascadedBlock r u = cascadedBlock s u := by
  refine shape_congr h.params (fun c => ?_) fun c => ?_ <;> rw [h.svfs, svfOf_processInput] <;> simp

/-- The blocks of steps 7 and 8, from the state before the block and the registers of this block. -/
theorem BeforeEffects.blocks_eq {s r t : State} (h : BeforeEffects s r t) {n : Nat} (u : Vector Frame n) :
    (diffusedBlock r u = if s.mode = .spectral then u else (Config.diffProcess s.kernels.diff t.drv.diff n u).2) ∧
      (pitchShifted r u = Config.psProcess s.kernels.ps (pitchRatio s.p[2].toInt) s.p[1] n u) ∧
      (shiftsPitch r ↔ s.mode = .loopingDelay ∧ (s.p[9].getLsbD 0 = false ∨ t.loopSync = true)) := by
  obtain ⟨hmode, hparams, hdrv, hsync, hdiff, hps, -, -⟩ := h
  refine ⟨?_, ?_, ?_⟩
  · rw [diffusedBlock, hmode, hdiff, hdrv]
  · rw [pitchShifted, hps, hparams]
  · rw [shiftsPitch, hmode, hsync, State.frozen, hparams]

/-- The block of step 8 of a `PROCESS`. -/
def processPitched (s : State) : Vector Frame s.blockSize :=
  pitchedBlock (effectsState s) (upsampledBlock s (engineBlock s) s.blockSize)

/-- Every filter after a `PROCESS` that passes its gate. -/
theorem svfOf_processBlock (pair : Fin 4) (c : Fin 2) :
    svfOf (processBlock s) pair c =
      if pair = 0 then feedbackFilter s c s.blockSize
      else if pair = 1 then if s.lofi then decimationFilter s c s.blockSize else svfOf s 1 c
      else if s.mode = .stretch ∨ s.mode = .loopingDelay then
        if pair = 2 then shapeLowFilter s (processPitched s).toList c s.blockSize
        else shapeHighFilter s (processPitched s).toList c s.blockSize
      else svfOf s pair c := by
  have h := beforeEffects_processBlock s
  obtain ⟨hlow, hhigh, -⟩ := h.shape_eq
  obtain ⟨-, -, hsvfs⟩ := processEffects_values (effectsState s) (upsampledBlock s (engineBlock s) s.blockSize)
  have htone := svfOf_toneStage (effectsState s) (processPitched s) pair c
  rw [svfOf_eq, (processBlock_eq_effects s).1, hsvfs, ← svfOf_eq]
  refine htone.trans ?_
  rw [h.mode, hlow, hhigh, h.svfs, svfOf_processInput]
  obtain rfl | rfl | rfl | rfl : pair = 0 ∨ pair = 1 ∨ pair = 2 ∨ pair = 3 := by omega
  · simp
  · simp
  · simp
  · simp

end

/-- What a `PROCESS` that passes its gate, from `s` to `t`, leaves in each unit (48_sequencer.md R156). -/
structure ProcessUnits (s t : State) : Prop where
  grains : s.mode ≠ .granular → t.grains = s.grains
  wsola : s.mode ≠ .stretch → t.search = s.search ∧ t.kernels.wsola = s.kernels.wsola
  loop : s.mode ≠ .loopingDelay → t.loopSync = s.loopSync ∧ t.kernels.loop = s.kernels.loop
  pv : s.mode ≠ .spectral → t.kernels.pv = s.kernels.pv
  stretch : s.mode = .stretch →
    let out := Config.wsolaPlay s.kernels.wsola (rbViews t) ⟨s.p, t.drv⟩ s.internalLength (searchResult s.search)
    t.kernels.wsola = out.1 ∧ engineBlock s = out.2.1.toList ∧ t.search = searchAfterPlay s.search out.2.2
  looping : s.mode = .loopingDelay →
    let out := Config.loopPlay s.kernels.loop (rbViews t) ⟨s.p, t.drv⟩ s.internalLength
    t.kernels.loop = out.1 ∧ engineBlock s = out.2.1.toList ∧ t.loopSync = out.2.2
  spectral : s.mode = .spectral →
    let out := Config.pvPlay s.kernels.pv ⟨s.p, t.drv⟩ (internalBlock s s.internalLength) s.internalLength
    t.kernels.pv = out.1 ∧ engineBlock s = out.2.toList
  upPrev : t.upPrev = if s.lofi then (engineBlock s).getD (s.internalLength - 1) ⟨0, 0⟩ else s.upPrev
  before : BeforeEffects s (effectsState s) t
  diff : t.kernels.diff = if s.mode = .spectral then s.kernels.diff
    else (Config.diffProcess s.kernels.diff t.drv.diff s.blockSize (upsampledBlock s (engineBlock s) s.blockSize)).1
  ps : t.kernels.ps = if shiftsPitch (effectsState s) then
      (pitchShifted (effectsState s) (diffusedBlock (effectsState s) (upsampledBlock s (engineBlock s) s.blockSize))).1
    else s.kernels.ps
  fbbuf : t.fbbuf = (shapedBlock (effectsState s) (upsampledBlock s (engineBlock s) s.blockSize)).toList
  rev : t.kernels.rev = (Config.revProcess s.kernels.rev t.drv.reverb s.p[7] s.blockSize
    (shapedBlock (effectsState s) (upsampledBlock s (engineBlock s) s.blockSize))).1
  svfs : ∀ pair c, svfOf t pair c =
    if pair = 0 then feedbackFilter s c s.blockSize
    else if pair = 1 then if s.lofi then decimationFilter s c s.blockSize else svfOf s 1 c
    else if s.mode = .stretch ∨ s.mode = .loopingDelay then
      if pair = 2 then shapeLowFilter s (processPitched s).toList c s.blockSize
      else shapeHighFilter s (processPitched s).toList c s.blockSize
    else svfOf s pair c

theorem processUnits_processBlock (s : State) : ProcessUnits s (processBlock s) := by
  obtain ⟨hgrains, hwsola, hloop, hpv⟩ := processBlock_idle_engines s
  have hbefore := beforeEffects_processBlock s
  obtain ⟨hblock, hlast⟩ := processBlock_eq_effects s
  obtain ⟨-, -, -, -, -, -, hup⟩ := processBlock_engine s
  obtain ⟨hfbbuf, hkernels, -⟩ := processEffects_values (effectsState s) (upsampledBlock s (engineBlock s) s.blockSize)
  rw [← hblock] at hfbbuf hkernels
  refine ⟨hgrains, hwsola, hloop, hpv, processBlock_stretch s, processBlock_loopingDelay s, processBlock_spectral s,
    hup.trans hlast, hbefore, ?_, ?_, hfbbuf, ?_, svfOf_processBlock s⟩
  · refine (congrArg Kernels.diff hkernels).trans ?_
    simp only [hbefore.mode, hbefore.diff, hbefore.drv]
  · exact (congrArg Kernels.ps hkernels).trans (by simp only [hbefore.ps])
  · refine (congrArg Kernels.rev hkernels).trans ?_
    simp only [hbefore.rev, hbefore.drv, hbefore.params]

/-- The response and the count of a command are no unit's. -/
theorem ProcessUnits.completed {s u : State} (h : ProcessUnits s u) :
    ProcessUnits s { u with resp := none, cmdcnt := u.cmdcnt + 1 } := by
  obtain ⟨grains, wsola, loop, pv, stretch, looping, spectral, upPrev, before, diff, ps, fbbuf, rev, svfs⟩ := h
  obtain ⟨mode, params, drv, sync, diffOld, psOld, revOld, svfsOld⟩ := before
  exact ⟨grains, wsola, loop, pv, stretch, looping, spectral, upPrev,
    ⟨mode, params, drv, sync, diffOld, psOld, revOld, svfsOld⟩, diff, ps, fbbuf, rev, svfs⟩

/-- A `PROCESS` that passes its gate: its frame, and its units. -/
theorem exec_process_units {s : State} {size : BitVec 16} (hf : s.fault = false) (hi : s.inited = true) (hb : s.bypass = false)
    (hs : s.silence = false) (hst : stable s) (hsize : size.toNat = s.blockSize) :
    ∃ t, exec (.process size) s = .next t ∧
      t = { s with
            freezeLp := t.freezeLp
            drv := t.drv
            dwPrev := s.p[5]
            svfs := t.svfs
            large := t.large
            small := t.small
            rings := t.rings
            grains := t.grains
            search := t.search
            kernels := t.kernels
            loopSync := t.loopSync
            upPrev := t.upPrev
            fbbuf := t.fbbuf
            outbuf := t.outbuf
            resp := none
            cmdcnt := s.cmdcnt + 1 } ∧
      (∀ sp, (t.arena sp).declared = (s.arena sp).declared ∧ (t.arena sp).size = (s.arena sp).size) ∧
      t.freezeLp = freezeFollow s.frozen s.freezeLp ∧ ProcessUnits s t := by
  refine ⟨_, exec_process_of_gate_open hf hi hb hs hst hsize, ?_, ?_, ?_, (processUnits_processBlock s).completed⟩ <;>
    obtain ⟨v, ml, ms, rs, g, w, k, b, up, f, o, e⟩ := processBlock_frame s <;> rw [e]
  exact fun sp => by cases sp <;> exact ⟨rfl, rfl⟩

/-- Settles O53: each unit as `ProcessUnits` says, its blocks written out from the state before the block. -/
theorem processChangesOnlyItsUnits : Obligations.ProcessChangesOnlyItsUnits := by
  unfold Obligations.ProcessChangesOnlyItsUnits
  intro s size hf hi hb hs hst hsize
  obtain ⟨t, hexec, hframe, harenas, hlp, hunits⟩ := exec_process_units hf hi hb hs hst hsize
  obtain ⟨grains, wsola, loop, pv, stretch, looping, spectral, upPrev, before, diff, ps, fbbuf, rev, svfs⟩ := hunits
  obtain ⟨hspread, -, hshifts⟩ := before.blocks_eq (upsampledBlock s (engineBlock s) s.blockSize)
  have hstill (hm : s.mode ≠ .loopingDelay) : t.kernels.ps = s.kernels.ps :=
    ps.trans (if_neg fun h => hm (hshifts.mp h).1)
  have hpair1 (c : Fin 2) : svfOf t 1 c = if s.lofi then decimationFilter s c s.blockSize else svfOf s 1 c := svfs 1 c
  refine ⟨t, hexec, hframe, harenas, hlp, grains, wsola, fun hm => ⟨(loop hm).1, (loop hm).2, hstill hm⟩, pv,
    fun hm => diff.trans (if_pos hm), fun hl => ⟨upPrev.trans ?_, fun c => (hpair1 c).trans ?_⟩, fun hm c => ?_, ?_⟩
  · exact if_neg (by rw [show s.lofi = false from hl]; decide)
  · exact if_neg (by rw [show s.lofi = false from hl]; decide)
  · have hidle : ¬ (s.mode = .stretch ∨ s.mode = .loopingDelay) := by rcases hm with hm | hm <;> rw [hm] <;> decide
    exact ⟨(svfs 2 c).trans (if_neg hidle), (svfs 3 c).trans (if_neg hidle)⟩
  intro n ni params played diffused spread shifted shifts pitched shaped
  have hspread : diffusedBlock (effectsState s) played = spread := hspread
  have hshifted : pitchShifted (effectsState s) (diffusedBlock (effectsState s) played) = shifted := by
    rw [hspread]
    exact (before.blocks_eq spread).2.1
  have hpitched : pitchedBlock (effectsState s) played = pitched := by
    rw [pitchedBlock, hshifted, hspread]
    exact if_congr hshifts rfl rfl
  have hshaped : shapedBlock (effectsState s) played = shaped := by
    rw [shapedBlock, hpitched, before.mode, before.shape_eq.2.2]
  have hps : t.kernels.ps = if shifts then shifted.1 else s.kernels.ps := by
    rw [ps, hshifted]
    exact if_congr hshifts rfl rfl
  refine ⟨engineBlock_length s, fun hl => upPrev.trans (if_pos hl), fun c => svfs 0 c, fun hl c => (hpair1 c).trans (if_pos hl),
    fun hm c => ⟨?_, ?_⟩, ?_, ?_, fun hm => diff.trans (if_neg hm), stretch, fun hm => ?_, spectral⟩
  · rw [← hpitched]
    exact (svfs 2 c).trans (if_pos hm)
  · rw [← hpitched]
    exact (svfs 3 c).trans (if_pos hm)
  · rw [fbbuf, hshaped]
  · rw [rev, hshaped]
  · obtain ⟨hkernel, hblock, hsync⟩ := looping hm
    refine ⟨hkernel, hblock, hsync, ?_⟩
    have hruns : shifts ↔ ¬ (s.p[9].getLsbD 0 = true ∧ t.loopSync = false) := by
      rw [not_and_or, Bool.not_eq_true, Bool.not_eq_false]
      exact and_iff_right hm
    exact hps.trans ((if_congr hruns rfl rfl).trans (ite_not ..))

end Sys2Proof.Machine
end

section
/-! PROOFS. Hardware reset (70_reset_and_hazards.md R192): what each block of registers reads after it, and the invariant of a
run. -/

namespace Sys2Proof.Machine

/-! ## The register sets a reset leaves -/

/-- The registers of a filter: `R`, `H` and `Q` hold 1.0 (42_svf.md R97). -/
theorem svfReg?_atReset {k : Nat} (hk : k ≤ 0xC) :
    svfReg? Svf.atReset k = some (if k = 0x1 ∨ k = 0x2 ∨ k = 0xC then 65536 else 0) := by
  interval_cases k <;> rfl

theorem ringReg?_unbound {k : Nat} (hk : k ≤ 5 ∨ (8 ≤ k ∧ k ≤ 15)) : ringReg? Ring.unbound k = some 0 := by
  rcases hk with h | ⟨h1, h2⟩
  · interval_cases k <;> rfl
  · interval_cases k <;> rfl

theorem slotReg?_clear {k : Nat} (hk : k ≤ 7) : slotReg? GrainSlot.clear k = some 0 := by
  interval_cases k <;> rfl

/-- The generator holds its seed (44_grain.md R113), and no slot is active. -/
theorem grainReg?_fresh {k : Nat} (hk : k ≤ 2) : grainReg? GrainPool.fresh k = some (if k = 0 then 1 else 0) := by
  interval_cases k <;> rfl

theorem searchReg?_idle {k : Nat} (hk : k ≤ 4) : searchReg? Search.idle k = some 0 := by
  interval_cases k <;> rfl

theorem derivedReg?_zero {k : Nat} (hk : k ≤ 8) : derivedReg? ⟨0, 0, false, 0, 0, 0, 0, 0, 0⟩ k = some 0 := by
  interval_cases k <;> rfl

/-! ## The reset value of an address -/

/-- The reset column of the register tables (70_reset_and_hazards.md R192), for `BLOCK_SIZE` frames a block. -/
def resetValue (blockSize a : Nat) : Word :=
  if a = 0x000 then 0x52424D31
  else if a = 0x003 then 4
  else if a = 0x009 then BitVec.ofNat 32 blockSize
  else if a = 0x016 then 16
  else if a = 0x017 then 2
  else if a = 0x100 then 1
  else if 0x080 ≤ a ∧ a < 0x100 ∧ (a % 16 = 0x1 ∨ a % 16 = 0x2 ∨ a % 16 = 0xC) then 65536
  else 0

theorem resetValue_zero (n : Nat) {a : Nat} (ha : (0x020 ≤ a ∧ a < 0x080) ∨ 0x110 ≤ a) : resetValue n a = 0 := by
  unfold resetValue
  rw [if_neg (by omega), if_neg (by omega), if_neg (by omega), if_neg (by omega), if_neg (by omega), if_neg (by omega),
    if_neg (by omega)]

theorem resetValue_svf (n : Nat) {a : Nat} (hlo : 0x080 ≤ a) (hhi : a < 0x100) :
    resetValue n a = if a % 16 = 0x1 ∨ a % 16 = 0x2 ∨ a % 16 = 0xC then 65536 else 0 := by
  unfold resetValue
  rw [if_neg (by omega), if_neg (by omega), if_neg (by omega), if_neg (by omega), if_neg (by omega), if_neg (by omega)]
  simp only [hlo, hhi, true_and]

theorem resetValue_grains (n : Nat) {a : Nat} (ha : 0x100 ≤ a) : resetValue n a = if a - 0x100 = 0 then 1 else 0 := by
  unfold resetValue
  rw [if_neg (by omega), if_neg (by omega), if_neg (by omega), if_neg (by omega), if_neg (by omega)]
  rcases ha.eq_or_lt with rfl | hlt
  · rfl
  · rw [if_neg (by omega), if_neg (by omega), if_neg (by omega)]

/-! ## The register map after a reset -/

theorem step_hardwareReset {s : State} {rest : List HostEvent} (h : s.inputs = .reset :: rest) :
    step s = .next (hardwareReset { s with inputs := rest }) := step_reset h

section

variable (s : State)

theorem hardwareReset_status : (hardwareReset s).status = 0 := by
  simp [State.status, State.frozen, hardwareReset, State.resetFor, Arena.undeclared, bit]

/-- Quality 0 is stereo (10_state.md R22). -/
theorem hardwareReset_mono : (hardwareReset s).mono = false := BitVec.getLsbD_zero

/-- Quality 0 is full fidelity (10_state.md R22). -/
theorem hardwareReset_lofi : (hardwareReset s).lofi = false := BitVec.getLsbD_zero

theorem hardwareReset_intSr : (hardwareReset s).intSr = 0 := by
  rw [State.intSr, hardwareReset_lofi]
  rfl

theorem hardwareReset_resolution : (hardwareReset s).resolution = 16 := by
  rw [State.resolution, hardwareReset_lofi]
  rfl

theorem hardwareReset_channels : (hardwareReset s).channels = 2 := by
  rw [State.channels, hardwareReset_mono]
  rfl

theorem hardwareReset_globalReg? {a : Nat} (ha : a ≤ 0x00E ∨ (0x010 ≤ a ∧ a ≤ 0x017)) :
    globalReg? (hardwareReset s) a = some (resetValue s.blockSize a) := by
  have hblocks : a = 0x000 ∨ a = 0x001 ∨ (0x002 ≤ a ∧ a ≤ 0x00E) ∨ (0x010 ≤ a ∧ a ≤ 0x014) ∨ a = 0x015 ∨ a = 0x016 ∨
      a = 0x017 := by omega
  rcases hblocks with rfl | rfl | ⟨h1, h2⟩ | ⟨h1, h2⟩ | rfl | rfl | rfl
  · rfl
  · exact congrArg some (hardwareReset_status s)
  · interval_cases a <;> rfl
  · interval_cases a <;> rfl
  · exact congrArg some (hardwareReset_intSr s)
  · exact congrArg (fun n => some (BitVec.ofNat 32 n)) (hardwareReset_resolution s)
  · exact congrArg (fun n => some (BitVec.ofNat 32 n)) (hardwareReset_channels s)

theorem hardwareReset_paramReg? {k : Nat} (hk : k ≤ 9) : paramReg? (hardwareReset s) k = some 0 := by
  interval_cases k <;> rfl

theorem hardwareReset_ring {k : Nat} (hk : k < 2) : (hardwareReset s).rings[k] = Ring.unbound :=
  Vector.getElem_replicate hk

theorem hardwareReset_svf {k : Nat} (hk : k < 8) : (hardwareReset s).svfs[k] = Svf.atReset :=
  Vector.getElem_replicate hk

theorem hardwareReset_slot {k : Nat} (hk : k < 16) : (hardwareReset s).grains.slots[k] = GrainSlot.clear :=
  Vector.getElem_replicate hk

/-- Every mapped register after a reset, block of addresses by block of addresses. -/
theorem hardwareReset_reg? {a : Nat} (ha : mappedAddress a = true) :
    (hardwareReset s).reg? a = some (resetValue s.blockSize a) := by
  rw [mappedAddress_iff] at ha
  unfold State.reg?
  split_ifs
  · exact hardwareReset_globalReg? s (by omega)
  · rw [hardwareReset_paramReg? s (by omega), resetValue_zero _ (by omega)]
  · rw [resetValue_zero _ (by omega)]
    exact derivedReg?_zero (by omega)
  · rw [hardwareReset_ring s (by omega), ringReg?_unbound (by omega), resetValue_zero _ (by omega)]
  · rw [hardwareReset_ring s (by omega), ringReg?_unbound (by omega), resetValue_zero _ (by omega)]
  · omega
  · rw [hardwareReset_svf s (by omega), svfReg?_atReset (by omega), resetValue_svf _ (by omega) (by omega)]
  · rw [resetValue_grains _ (by omega), ← grainReg?_fresh (by omega)]
    rfl
  · rw [hardwareReset_slot s (by omega), slotReg?_clear (by omega), resetValue_zero _ (by omega)]
  · omega
  · rw [resetValue_zero _ (by omega)]
    exact searchReg?_idle (by omega)

/-- No byte of an arena is specified after a reset (20_memory.md R41). -/
theorem hardwareReset_byte? (sp : Space) (x : Nat) : (hardwareReset s).byte? sp x = none := by
  cases sp <;> rfl

end

/-- Settles O6: the registers by `hardwareReset_reg?`, the buffers by the definition of the reset. -/
theorem resetRegisterValues : Obligations.ResetRegisterValues := by
  unfold Obligations.ResetRegisterValues
  intro s rest h
  exact ⟨_, step_hardwareReset h, fun a ha => hardwareReset_reg? _ ha, rfl, rfl, rfl, rfl, rfl, hardwareReset_byte? _⟩

/-! ## The invariant of a run -/

/-- The fault record is empty after a reset (10_state.md R26). -/
theorem faultOk_reset (hw : HwParams) : FaultOk (State.resetFor hw) := ⟨fun _ => ⟨rfl, rfl, rfl, rfl⟩, nofun⟩

/-- Settles O7: the units by `unitsOk_reset`, the fault record by `faultOk_reset`. -/
theorem invariantHoldsAtReset : Obligations.InvariantHoldsAtReset := by
  unfold Obligations.InvariantHoldsAtReset
  have hinv (hw : HwParams) : (State.resetFor hw).Inv := inv_iff.mpr ⟨unitsOk_reset hw, faultOk_reset hw⟩
  exact ⟨hinv HwParams.standard, hinv⟩

end Sys2Proof.Machine
end

section
/-! PROOFS. Legal command words (60_exceptions.md R181): a word matches a row of the opcode map exactly when it decodes, and then
the row of its command. -/

namespace Sys2Proof.Machine

open Sys2Proof.Laws

/-! ## A word that decodes matches the row of its command -/

theorem rowOf_mem (i : Instr) : rowOf i ∈ commandRows := by cases i <;> simp [rowOf, commandRows]

/-- The word of every command matches its row (30_encoding.md R65). -/
theorem encode_and_mask (i : Instr) : encode i &&& (rowOf i).mask = (rowOf i).pattern := by
  cases i with
  | nop => exact LegalWord.nop
  | csrr addr => exact LegalWord.csrr addr
  | arena which size => exact LegalWord.arena which size
  | tblinit sr => exact LegalWord.tblinit sr
  | init sr => exact LegalWord.init sr
  | pset index value => exact LegalWord.pset index value
  | setmode mode => exact LegalWord.setmode mode
  | setqual quality => exact LegalWord.setqual quality
  | setsil flag => exact LegalWord.setsil flag
  | setbyp flag => exact LegalWord.setbyp flag
  | rstbuf => exact LegalWord.rstbuf
  | prepare => exact LegalWord.prepare
  | process size => exact LegalWord.process size
  | framew index left right => exact LegalWord.framew index left right
  | framer index => exact LegalWord.framer index
  | peek space addr => exact LegalWord.peek space addr
  | rbinit inst space enc base size => exact LegalWord.rbinit inst space enc base size
  | rbwf inst allow count stride src => exact LegalWord.rbwf inst allow count stride src
  | rbrd inst offset frac => exact LegalWord.rbrd inst offset frac
  | svfrst inst => exact LegalWord.svfrst inst
  | svfset inst f q => exact LegalWord.svfset inst f q
  | svfstep inst x => exact LegalWord.svfstep inst x
  | lim x => exact LegalWord.lim x
  | xfade dw dry wet => exact LegalWord.xfade dw dry wet

theorem matches_rowOf {w : Cmd} {i : Instr} (h : decode w = .ok i) : w &&& (rowOf i).mask = (rowOf i).pattern :=
  encode_of_decode h ▸ encode_and_mask i

/-! ## A word that matches a row decodes -/

theorem opcField_and (w m : Cmd) : opcField (w &&& m) = opcField w &&& opcField m := BitVec.extractLsb'_and

theorem aField_and (w m : Cmd) : aField (w &&& m) = aField w &&& aField m := BitVec.extractLsb'_and

theorem bField_and (w m : Cmd) : bField (w &&& m) = bField w &&& bField m := BitVec.extractLsb'_and

theorem cField_and (w m : Cmd) : cField (w &&& m) = cField w &&& cField m := BitVec.extractLsb'_and

section

variable {w : Cmd}

/-- A word has a row's opcode, and the other bits that the row's mask tests are 0. -/
structure RowFields (w : Cmd) (opc ma : BitVec 8) (mb : BitVec 16) (mc : BitVec 32) : Prop where
  opcode : opcField w = opc
  a : aField w &&& ma = 0
  b : bField w &&& mb = 0
  c : cField w &&& mc = 0

/-- A word matches a row field by field. -/
theorem rowFields_of_and (opc ma : BitVec 8) (mb : BitVec 16) (mc : BitVec 32)
    (h : w &&& packWord 0xFF ma mb mc = packWord opc 0 0 0) : RowFields w opc ma mb mc := by
  constructor
  · have := congrArg opcField h
    rwa [opcField_and, opcField_packWord, opcField_packWord,
      show (0xFF : BitVec 8) = BitVec.allOnes 8 from rfl, BitVec.and_allOnes] at this
  · have := congrArg aField h
    rwa [aField_and, aField_packWord, aField_packWord] at this
  · have := congrArg bField h
    rwa [bField_and, bField_packWord, bField_packWord] at this
  · have := congrArg cField h
    rwa [cField_and, cField_packWord, cField_packWord] at this

/-- A word answers with some command where its unused bits are 0. -/
theorem exists_ifUnusedZero {ok : Bool} (w : Cmd) (i : Instr) (h : ok = true) : ∃ j, ifUnusedZero ok w i = .ok j :=
  ⟨i, ifUnusedZero_eq_ok.mpr ⟨h, rfl⟩⟩

/-- A field all of whose bits a row tests is 0. -/
theorem eq_zero_of_and_allOnes {n : Nat} {x : BitVec n} (h : x &&& BitVec.allOnes n = 0) : x = 0 := by
  rwa [BitVec.and_allOnes] at h

/-- An `A` field with no bit above its flag (30_encoding.md R64). -/
theorem toNat_lt_two_of_and {a : BitVec 8} (h : a &&& 0xFE = 0) : a.toNat < 2 := by
  revert a
  decide

/-- An `A` field with no bit above its two flags. -/
theorem toNat_lt_four_of_and {a : BitVec 8} (h : a &&& 0xFC = 0) : a.toNat < 4 := by
  revert a
  decide

/-- An `A` field with no bit above its three flags or its filter number. -/
theorem toNat_lt_eight_of_and {a : BitVec 8} (h : a &&& 0xF8 = 0) : a.toNat < 8 := by
  revert a
  decide

/-- A word that matches a row decodes. The cases are the rows of the opcode map in their order (30_encoding.md R65). -/
theorem decode_of_row {row : CommandRow} (hrow : row ∈ commandRows) (hw : w &&& row.mask = row.pattern) :
    ∃ i, decode w = .ok i := by
  simp only [commandRows, List.mem_cons, List.not_mem_nil, or_false] at hrow
  rcases hrow with rfl | rfl | rfl | rfl | rfl | rfl | rfl | rfl | rfl | rfl | rfl | rfl |
    rfl | rfl | rfl | rfl | rfl | rfl | rfl | rfl | rfl | rfl | rfl | rfl
  · obtain ⟨ho, ha, hb, hc⟩ := rowFields_of_and 0x00 0xFF 0xFFFF 0xFFFFFFFF hw
    rw [decode, ho]
    exact exists_ifUnusedZero w _ (by simp [eq_zero_of_and_allOnes ha, eq_zero_of_and_allOnes hb, eq_zero_of_and_allOnes hc])
  · obtain ⟨ho, ha, hb, hc⟩ := rowFields_of_and 0x01 0xFF 0 0xFFFFFFFF hw
    rw [decode, ho]
    exact exists_ifUnusedZero w _ (by simp [eq_zero_of_and_allOnes ha, eq_zero_of_and_allOnes hc])
  · obtain ⟨ho, ha, hb, hc⟩ := rowFields_of_and 0x02 0xFE 0xFFFF 0 hw
    rw [decode, ho]
    exact exists_ifUnusedZero w _ (by simp [toNat_lt_two_of_and ha, eq_zero_of_and_allOnes hb])
  · obtain ⟨ho, ha, hb, hc⟩ := rowFields_of_and 0x03 0xFF 0xFFFF 0 hw
    rw [decode, ho]
    exact exists_ifUnusedZero w _ (by simp [eq_zero_of_and_allOnes ha, eq_zero_of_and_allOnes hb])
  · obtain ⟨ho, ha, hb, hc⟩ := rowFields_of_and 0x04 0xFF 0xFFFF 0 hw
    rw [decode, ho]
    exact exists_ifUnusedZero w _ (by simp [eq_zero_of_and_allOnes ha, eq_zero_of_and_allOnes hb])
  · obtain ⟨ho, ha, hb, hc⟩ := rowFields_of_and 0x05 0 0 0xFFFFFFFF hw
    rw [decode, ho]
    exact exists_ifUnusedZero w _ (by simp [eq_zero_of_and_allOnes hc])
  · obtain ⟨ho, ha, hb, hc⟩ := rowFields_of_and 0x06 0 0xFFFF 0xFFFFFFFF hw
    rw [decode, ho]
    exact exists_ifUnusedZero w _ (by simp [eq_zero_of_and_allOnes hb, eq_zero_of_and_allOnes hc])
  · obtain ⟨ho, ha, hb, hc⟩ := rowFields_of_and 0x07 0 0xFFFF 0xFFFFFFFF hw
    rw [decode, ho]
    exact exists_ifUnusedZero w _ (by simp [eq_zero_of_and_allOnes hb, eq_zero_of_and_allOnes hc])
  · obtain ⟨ho, ha, hb, hc⟩ := rowFields_of_and 0x08 0xFE 0xFFFF 0xFFFFFFFF hw
    rw [decode, ho]
    exact exists_ifUnusedZero w _ (by simp [toNat_lt_two_of_and ha, eq_zero_of_and_allOnes hb, eq_zero_of_and_allOnes hc])
  · obtain ⟨ho, ha, hb, hc⟩ := rowFields_of_and 0x09 0xFE 0xFFFF 0xFFFFFFFF hw
    rw [decode, ho]
    exact exists_ifUnusedZero w _ (by simp [toNat_lt_two_of_and ha, eq_zero_of_and_allOnes hb, eq_zero_of_and_allOnes hc])
  · obtain ⟨ho, ha, hb, hc⟩ := rowFields_of_and 0x0A 0xFF 0xFFFF 0xFFFFFFFF hw
    rw [decode, ho]
    exact exists_ifUnusedZero w _ (by simp [eq_zero_of_and_allOnes ha, eq_zero_of_and_allOnes hb, eq_zero_of_and_allOnes hc])
  · obtain ⟨ho, ha, hb, hc⟩ := rowFields_of_and 0x0B 0xFF 0xFFFF 0xFFFFFFFF hw
    rw [decode, ho]
    exact exists_ifUnusedZero w _ (by simp [eq_zero_of_and_allOnes ha, eq_zero_of_and_allOnes hb, eq_zero_of_and_allOnes hc])
  · obtain ⟨ho, ha, hb, hc⟩ := rowFields_of_and 0x0C 0xFF 0 0xFFFFFFFF hw
    rw [decode, ho]
    exact exists_ifUnusedZero w _ (by simp [eq_zero_of_and_allOnes ha, eq_zero_of_and_allOnes hc])
  · obtain ⟨ho, ha, hb, hc⟩ := rowFields_of_and 0x0D 0xFF 0 0 hw
    rw [decode, ho]
    exact exists_ifUnusedZero w _ (by simp [eq_zero_of_and_allOnes ha])
  · obtain ⟨ho, ha, hb, hc⟩ := rowFields_of_and 0x0E 0xFF 0 0xFFFFFFFF hw
    rw [decode, ho]
    exact exists_ifUnusedZero w _ (by simp [eq_zero_of_and_allOnes ha, eq_zero_of_and_allOnes hc])
  · obtain ⟨ho, ha, hb, hc⟩ := rowFields_of_and 0x0F 0xFE 0xFFFF 0 hw
    rw [decode, ho]
    exact exists_ifUnusedZero w _ (by simp [toNat_lt_two_of_and ha, eq_zero_of_and_allOnes hb])
  · obtain ⟨ho, ha, hb, hc⟩ := rowFields_of_and 0x10 0xF8 0 0 hw
    rw [decode, ho]
    exact exists_ifUnusedZero w _ (by simp [toNat_lt_eight_of_and ha])
  · obtain ⟨ho, ha, hb, hc⟩ := rowFields_of_and 0x11 0xFC 0 0 hw
    rw [decode, ho]
    exact exists_ifUnusedZero w _ (by simp [toNat_lt_four_of_and ha])
  · obtain ⟨ho, ha, hb, hc⟩ := rowFields_of_and 0x12 0xFE 0 0 hw
    rw [decode, ho]
    exact exists_ifUnusedZero w _ (by simp [toNat_lt_two_of_and ha])
  · obtain ⟨ho, ha, hb, hc⟩ := rowFields_of_and 0x18 0xF8 0xFFFF 0xFFFFFFFF hw
    rw [decode, ho]
    exact exists_ifUnusedZero w _ (by simp [toNat_lt_eight_of_and ha, eq_zero_of_and_allOnes hb, eq_zero_of_and_allOnes hc])
  · obtain ⟨ho, ha, hb, hc⟩ := rowFields_of_and 0x19 0xF8 0 0 hw
    rw [decode, ho]
    exact exists_ifUnusedZero w _ (by simp [toNat_lt_eight_of_and ha])
  · obtain ⟨ho, ha, hb, hc⟩ := rowFields_of_and 0x1A 0xF8 0xFFFF 0 hw
    rw [decode, ho]
    exact exists_ifUnusedZero w _ (by simp [toNat_lt_eight_of_and ha, eq_zero_of_and_allOnes hb])
  · obtain ⟨ho, ha, hb, hc⟩ := rowFields_of_and 0x1C 0xFF 0xFFFF 0 hw
    rw [decode, ho]
    exact exists_ifUnusedZero w _ (by simp [eq_zero_of_and_allOnes ha, eq_zero_of_and_allOnes hb])
  · obtain ⟨ho, ha, hb, hc⟩ := rowFields_of_and 0x1D 0xFF 0 0 hw
    rw [decode, ho]
    exact exists_ifUnusedZero w _ (by simp [eq_zero_of_and_allOnes ha])

theorem legalWord_iff : legalWord w = true ↔ ∃ row ∈ commandRows, w &&& row.mask = row.pattern := by
  simp only [legalWord, List.any_eq_true, decide_eq_true_eq]

/-- A word decodes exactly when it is legal (60_exceptions.md R181). -/
theorem exists_decode_iff : (∃ i, decode w = .ok i) ↔ legalWord w = true := by
  rw [legalWord_iff]
  exact ⟨fun ⟨i, h⟩ => ⟨rowOf i, rowOf_mem i, matches_rowOf h⟩, fun ⟨_, hrow, hw⟩ => decode_of_row hrow hw⟩

/-! ## Reserved opcodes -/

/-- Every row tests the whole opcode. -/
theorem opcField_of_row {row : CommandRow} (hrow : row ∈ commandRows) (hw : w &&& row.mask = row.pattern) :
    opcField w = opcField row.pattern := by
  have hmask : ∀ row ∈ commandRows, opcField row.mask = BitVec.allOnes 8 := by decide
  have h := congrArg opcField hw
  rwa [opcField_and, hmask row hrow, BitVec.and_allOnes] at h

/-- A word with a reserved opcode is illegal (30_encoding.md R65). -/
theorem legalWord_of_reserved
    (h : (0x13 ≤ (opcField w).toNat ∧ (opcField w).toNat ≤ 0x17) ∨ (opcField w).toNat = 0x1B ∨
      0x1E ≤ (opcField w).toNat) :
    legalWord w = false := by
  have hdefined : ∀ row ∈ commandRows, (opcField row.pattern).toNat ≤ 0x12 ∨
      (0x18 ≤ (opcField row.pattern).toNat ∧ (opcField row.pattern).toNat ≤ 0x1A) ∨
      (0x1C ≤ (opcField row.pattern).toNat ∧ (opcField row.pattern).toNat ≤ 0x1D) := by decide
  rw [Bool.eq_false_iff, ne_eq, legalWord_iff]
  rintro ⟨row, hrow, hw⟩
  have := hdefined row hrow
  rw [← opcField_of_row hrow hw] at this
  omega

/-! ## A step on an illegal word -/

/-- An illegal word is refused by the decoder. -/
theorem decode_error_of_illegal (h : legalWord w = false) : ∃ e, decode w = .error e := by
  cases hd : decode w with
  | error e => exact ⟨e, rfl⟩
  | ok i => exact absurd (exists_decode_iff.mp ⟨i, hd⟩) (Bool.eq_false_iff.mp h)

theorem step_present_of_decode {i : Instr} (s : State) (h : decode w = .ok i) : step (s.present w) = exec i s := by
  rw [step_command rfl, h]
  rfl

theorem step_present_of_illegal (s : State) (h : legalWord w = false) :
    step (s.present w) = illegalCommand w s := by
  obtain ⟨e, he⟩ := decode_error_of_illegal h
  rw [step_command rfl, he]
  rfl

/-- An illegal word takes `ILLEGAL_CMD` with its opcode (60_exceptions.md R181). -/
theorem step_illegal {s : State} (hf : s.fault = false) (h : legalWord w = false) :
    step (s.present w) = .next (s.faulted .illegalCmd (opcField w).toNat w) := by
  rw [step_present_of_illegal s h, illegalCommand, unlessFaulted_of_clear hf, raise_eq]

end

/-- Settles O3, by the rows of the opcode map. -/
theorem legalWordsMatchARow : Obligations.LegalWordsMatchARow := by
  unfold Obligations.LegalWordsMatchARow
  intro w
  simp only [← legalWord_iff, Bool.not_eq_true]
  refine ⟨exists_decode_iff, legalWord_of_reserved, fun _ => matches_rowOf, fun s hf h => ?_⟩
  rw [step_illegal hf h, State.faulted, BitVec.ofNat_toNat]
  rfl

end Sys2Proof.Machine
end

section
/-! PROOFS. The fault tables (60_exceptions.md R182 to R188): in a state that is not faulted every command either raises the first
fault its tables name or passes all its checks and completes. -/

namespace Sys2Proof.Machine

/-! ## The tables name one fault -/

section

variable {s : State} {i : Instr} {c d : Cause} {v u : Nat}

/-- A command raises at most one fault (60_exceptions.md R188). -/
theorem Raises.unique (h : Raises s i c v) (h' : Raises s i d u) : c = d ∧ v = u := by
  cases h with
  | sequence hs =>
    cases h' with
    | sequence => exact ⟨rfl, rfl⟩
    | operand _ hs' | unbound _ hs' | arena hs' => exact nomatch hs.symm.trans hs'
  | operand v hs ho =>
    cases h' with
    | sequence hs' => exact nomatch hs.symm.trans hs'
    | operand u _ ho' => exact ⟨rfl, Option.some.inj (ho.symm.trans ho')⟩
    | unbound _ _ ho' | arena _ ho' => exact nomatch ho.symm.trans ho'
  | unbound v hs ho hu =>
    cases h' with
    | sequence hs' => exact nomatch hs.symm.trans hs'
    | operand _ _ ho' => exact nomatch ho.symm.trans ho'
    | unbound u _ _ hu' => exact ⟨rfl, Option.some.inj (hu.symm.trans hu')⟩
    | arena _ _ hu' => exact nomatch hu.symm.trans hu'
  | arena hs ho hu =>
    cases h' with
    | sequence hs' => exact nomatch hs.symm.trans hs'
    | operand _ _ ho' => exact nomatch ho.symm.trans ho'
    | unbound _ _ _ hu' => exact nomatch hu.symm.trans hu'
    | arena => exact ⟨rfl, rfl⟩

/-- A command that raises a fault fails a check. -/
theorem Raises.not_noFault (h : Raises s i c v) : ¬ noFault s i := by
  rintro ⟨hsequence, hoperand, hunbound, harena⟩
  cases h with
  | sequence hs => exact nomatch hs.symm.trans hsequence
  | operand v _ ho => exact nomatch ho.symm.trans hoperand
  | unbound v _ _ hu => exact nomatch hu.symm.trans hunbound
  | arena _ _ _ ha => exact harena ha

end

/-! ## Runs that follow the tables -/

/-- A run ends as the fault tables say: in the fault they name, or, where they name none, with the command's effect. -/
inductive Judged (s : State) (i : Instr) : Result → Prop where
  | raised {c : Cause} {v : Nat} (h : Raises s i c v) : Judged s i (raise c v (encode i) s)
  | completed (h : noFault s i) (r : Option Word) {u : State} (effect : Completes s i u) : Judged s i (complete r u)

section

variable {s : State} {i : Instr} {run : Result}

theorem Judged.eq_raise (h : Judged s i run) {c : Cause} {v : Nat} (hr : Raises s i c v) :
    run = raise c v (encode i) s := by
  cases h with
  | raised h =>
    obtain ⟨rfl, rfl⟩ := h.unique hr
    rfl
  | completed h => exact absurd h hr.not_noFault

theorem Judged.eq_complete (h : Judged s i run) (hn : noFault s i) : ∃ r u, Completes s i u ∧ run = complete r u := by
  cases h with
  | raised h => exact absurd hn h.not_noFault
  | completed _ r effect => exact ⟨r, _, effect, rfl⟩

theorem Judged.unlessFaulted (hf : s.fault = false) (h : Judged s i run) : Judged s i (unlessFaulted s run) := by
  rwa [unlessFaulted_of_clear hf]

/-- The check of the `SEQUENCE` table. -/
theorem Judged.sequence {p : Bool} (hp : sequenceFault s i = p) (hrun : sequenceFault s i = false → Judged s i run) :
    Judged s i (if p then raise .sequence 0 (encode i) s else run) := by
  subst hp
  split
  · exact .raised (.sequence ‹_›)
  · exact hrun (Bool.eq_false_iff.mpr ‹_›)

/-- The check of the `OPERAND` table. -/
theorem Judged.operand {p : Prop} [Decidable p] {v : Nat} (hs : sequenceFault s i = false)
    (hp : operandFault s i = if p then some v else none) (hrun : ¬p → operandFault s i = none → Judged s i run) :
    Judged s i (if p then raise .operand v (encode i) s else run) := by
  split
  · exact .raised (.operand v hs (hp.trans (if_pos ‹_›)))
  · exact hrun ‹_› (hp.trans (if_neg ‹_›))

/-- The check of `UNBOUND`. -/
theorem Judged.unbound {b : Bool} {v : Nat} (hs : sequenceFault s i = false) (ho : operandFault s i = none)
    (hp : unboundFault s i = if b then none else some v) (hrun : b = true → unboundFault s i = none → Judged s i run) :
    Judged s i (if !b then raise .unbound v (encode i) s else run) := by
  cases b with
  | false => exact .raised (.unbound v hs ho hp)
  | true => exact hrun rfl hp

/-- The check of the `OPERAND` table by an index that is in range (`PSET`, `FRAMEW`, `FRAMER`). -/
theorem Judged.select {p : Prop} [Decidable p] {v : Nat} {run : p → Result} (hs : sequenceFault s i = false)
    (hp : operandFault s i = if p then none else some v) (hrun : (h : p) → operandFault s i = none → Judged s i (run h)) :
    Judged s i (if h : p then run h else raise .operand v (encode i) s) := by
  split
  · exact hrun ‹_› (hp.trans (if_pos ‹_›))
  · exact .raised (.operand v hs (hp.trans (if_neg ‹_›)))

end

/-! ## The conditions of ARENA (60_exceptions.md R185) -/

section

variable {s : State}

/-- Where one of R85's conditions holds the region check of `RBINIT` fails. -/
theorem not_regionMisfit_of_rbinitMisfit {inst : Fin 2} {space : Space} {enc : SampleFormat} {base size : BitVec 24}
    (h : rbinitMisfit s inst space enc base size = false) :
    ¬ regionMisfit s inst space enc base.toNat size.toNat := by
  obtain ⟨hin, heven, hroom, -⟩ := rbinitMisfit_eq_false h
  rintro (hout | ⟨he, hodd⟩ | hsmall | ⟨other, hne, hb, hs, hlo, hhi⟩)
  · omega
  · have := heven he
    omega
  · cases enc <;> exact absurd hsmall (not_lt.mpr hroom)
  · rw [← otherRing_of_ne hne.symm] at hb hs hlo hhi
    obtain ⟨-, hfree⟩ := Bool.or_eq_false_iff.mp h
    simp only [hb, hs, hlo, hhi, decide_true, Bool.and_self, Bool.true_eq_false] at hfree

/-- The region check of `RBINIT` is R85's. -/
theorem rbinitMisfit_iff {inst : Fin 2} {space : Space} {enc : SampleFormat} {base size : BitVec 24} :
    rbinitMisfit s inst space enc base size = true ↔ regionMisfit s inst space enc base.toNat size.toNat := by
  constructor
  · intro h
    by_contra hfit
    exact Bool.false_ne_true ((rbinitMisfit_of_not_regionMisfit hfit).symm.trans h)
  · intro hfit
    by_contra h
    exact not_regionMisfit_of_rbinitMisfit (Bool.eq_false_iff.mpr h) hfit

theorem partitionMisfit_of_none (h : partition? s = none) : partitionMisfit s := by
  by_contra hfit
  obtain ⟨plan, hplan⟩ := partition?_of_not_misfit hfit
  exact nomatch h.symm.trans hplan

/-- The workspace of a partition has the bytes its mode needs (20_memory.md R50). -/
theorem wsReq_le_of_partition? {plan : Partition} (h : partition? s = some plan) :
    s.hw.wsReq s.mode ≤ plan.wsSize.toNat := by
  simp only [partition?, Option.ite_none_left_eq_some, Option.some.injEq, not_lt] at h
  obtain ⟨-, -, hws, rfl⟩ := h
  exact hws

/-- A partition that exists fits (20_memory.md R50). -/
theorem not_partitionMisfit_of_some {plan : Partition} (h : partition? s = some plan) : ¬ partitionMisfit s := by
  have hvalues := planValues_of_partition? h
  obtain ⟨hroom, hsides⟩ := partition?_cases h
  rintro (⟨hm, hlt⟩ | hsmall | hws)
  · rcases hsides with ⟨hm', -⟩ | ⟨-, hle, -⟩
    · exact absurd (hm.symm.trans hm') Bool.false_ne_true
    · omega
  · rw [hvalues.samples] at hroom
    omega
  · rw [← hvalues.wsSize] at hws
    exact absurd (wsReq_le_of_partition? h) (not_le.mpr hws)

theorem not_fullWanted_of_lightWanted (h : lightWanted s) : ¬ fullWanted s := by
  obtain ⟨hpending, -, hnone, hfrom, hto⟩ := h
  rintro (hp | ⟨-, hp | hp | hp⟩)
  · exact nomatch hp.symm.trans hpending
  · exact hnone hp
  · exact hfrom hp
  · exact hto hp

theorem not_fullWanted_of_stable (h : stable s) : ¬ fullWanted s := by
  obtain ⟨hpending, hmode⟩ := h
  rintro (hp | ⟨hne, -⟩)
  · exact nomatch hp.symm.trans hpending
  · exact hne hmode

end

/-! ## Every command follows its tables -/

section

variable {s : State}

theorem reg?_eq_none {addr : Nat} (h : mappedAddress addr ≠ true) : s.reg? addr = none :=
  Option.not_isSome_iff_eq_none.mp fun hr => h ((reg?_isSome_iff s addr).mp hr)

theorem execCsrr_judged (hf : s.fault = false) (addr : BitVec 16) : Judged s (.csrr addr) (execCsrr addr s) := by
  by_cases hm : mappedAddress addr.toNat = true
  · have ho : operandFault s (.csrr addr) = none := if_pos hm
    obtain ⟨v, hv⟩ := Option.isSome_iff_exists.mp ((reg?_isSome_iff s addr.toNat).mpr hm)
    have hrun : execCsrr addr s = complete (some v) s := exec_csrr hf hv
    exact hrun ▸ .completed ⟨rfl, ho, rfl, id⟩ _ (.csrr addr)
  · rw [execCsrr, reg?_eq_none hm]
    exact .unlessFaulted hf (.raised (.operand _ rfl (if_neg hm)))

theorem Mode.ofNat?_eq_none {k : Nat} : Mode.ofNat? k = none ↔ 3 < k := by
  unfold Mode.ofNat?
  split <;> simp_all
  omega

theorem execSetmode_judged (hf : s.fault = false) (mode : BitVec 8) : Judged s (.setmode mode) (execSetmode mode s) := by
  have hmode := Mode.ofNat?_eq_none (k := mode.toNat)
  rw [execSetmode, unlessFaulted_of_clear hf]
  cases hm : Mode.ofNat? mode.toNat with
  | some m =>
    have ho : operandFault s (.setmode mode) = none := if_neg fun h => nomatch hm.symm.trans (hmode.mpr h)
    exact .completed ⟨rfl, ho, rfl, id⟩ _ (.setmode mode m hm)
  | none => exact .raised (.operand _ rfl (if_pos (hmode.mp hm)))

/-- The tables test a number, the commands their operand word. -/
theorem toNat_eq_zero_iff {n : Nat} (x : BitVec n) : x.toNat = 0 ↔ x = 0#n := by
  rw [← BitVec.toNat_inj, BitVec.toNat_zero]

theorem execArena_judged (hf : s.fault = false) (which : Space) (size : BitVec 32) :
    Judged s (.arena which size) (execArena which size s) := by
  refine .unlessFaulted hf <| .sequence rfl fun hs =>
    .operand hs (if_congr (or_congr_left (toNat_eq_zero_iff size)) rfl rfl) fun hsize ho => ?_
  obtain ⟨hpos, hlt⟩ := not_or.mp hsize
  exact .completed ⟨hs, ho, rfl, id⟩ none (.arena which size hs hpos (not_le.mp hlt))

theorem execTblinit_judged (hf : s.fault = false) (sr : BitVec 32) : Judged s (.tblinit sr) (execTblinit sr s) :=
  .unlessFaulted hf <| .sequence rfl fun hs => .operand hs (if_congr (toNat_eq_zero_iff sr) rfl rfl) fun hsr ho =>
    .completed ⟨hs, ho, rfl, id⟩ none (.tblinit sr hsr)

theorem execInit_judged (hf : s.fault = false) (sr : BitVec 32) : Judged s (.init sr) (execInit sr s) := by
  refine .unlessFaulted hf <| .sequence rfl fun hs =>
    .operand hs (if_congr (toNat_eq_zero_iff sr) rfl rfl) fun hsr ho => ?_
  have hready := hs
  simp only [sequenceFault, Bool.or_eq_false_iff, Bool.not_eq_false'] at hready
  obtain ⟨⟨⟨ht, -⟩, hl⟩, hsm⟩ := hready
  exact .completed ⟨hs, ho, rfl, id⟩ none (.init sr ht hl hsm hsr)

theorem execPset_judged (hf : s.fault = false) (index : BitVec 8) (value : BitVec 16) :
    Judged s (.pset index value) (execPset index value s) := by
  refine .unlessFaulted hf <| .select rfl ?_ fun h ho => .completed ⟨rfl, ho, rfl, id⟩ none (.pset index value h)
  exact (if_congr (by omega) rfl rfl).trans (ite_not ..)

theorem execFramew_judged (hf : s.fault = false) (index left right : BitVec 16) :
    Judged s (.framew index left right) (execFramew index left right s) := by
  refine .unlessFaulted hf <| .select rfl ?_ fun _ ho => .completed ⟨rfl, ho, rfl, id⟩ none (.framew index left right)
  exact (if_congr not_lt.symm rfl rfl).trans (ite_not ..)

theorem execFramer_judged (hf : s.fault = false) (index : BitVec 16) : Judged s (.framer index) (execFramer index s) := by
  refine .unlessFaulted hf <| .select rfl ?_ fun _ ho => .completed ⟨rfl, ho, rfl, id⟩ _ (.framer index)
  exact (if_congr not_lt.symm rfl rfl).trans (ite_not ..)

theorem execPeek_judged (hf : s.fault = false) (space : Space) (addr : BitVec 32) :
    Judged s (.peek space addr) (execPeek space addr s) := by
  refine .unlessFaulted hf <| .sequence rfl fun hs => .operand hs rfl fun _ ho => ?_
  split
  · exact .completed ⟨hs, ho, rfl, id⟩ _ (.peek space addr)
  · exact .completed ⟨hs, ho, rfl, id⟩ _ (.peekFree space addr)

theorem execRbinit_judged (hf : s.fault = false) (inst : Fin 2) (space : Space) (enc : SampleFormat)
    (base size : BitVec 24) :
    Judged s (.rbinit inst space enc base size) (execRbinit inst space enc base size s) := by
  refine .unlessFaulted hf <| .sequence rfl fun hs => ?_
  split
  · exact .raised (.arena hs rfl rfl (rbinitMisfit_iff.mp ‹_›))
  · have hclean : noFault s (.rbinit inst space enc base size) :=
      ⟨hs, rfl, rfl, fun hfit => ‹¬ rbinitMisfit s inst space enc base size = true› (rbinitMisfit_iff.mpr hfit)⟩
    have hready := hs
    simp only [sequenceFault, Bool.or_eq_false_iff, Bool.not_eq_false'] at hready
    obtain ⟨⟨-, hi⟩, hd⟩ := hready
    exact .completed hclean none (.rbinit inst space enc base size hi hd (Bool.eq_false_iff.mpr ‹_›))

theorem execRbwf_judged (hf : s.fault = false) (inst : Fin 2) (allow : Bool) (count stride src : BitVec 16) :
    Judged s (.rbwf inst allow count stride src) (execRbwf inst allow count stride src s) :=
  .unlessFaulted hf <| .sequence rfl fun hs => .operand hs rfl fun _ ho => .unbound hs ho rfl fun hb hu =>
    .completed ⟨hs, ho, hu, id⟩ none (.rbwf inst allow count stride src hb)

theorem execProcess_judged (hf : s.fault = false) (size : BitVec 16) :
    Judged s (.process size) (execProcess size s) := by
  refine .unlessFaulted hf <| .sequence rfl fun hs => .operand hs rfl fun _ ho => ?_
  have hclean : noFault s (.process size) := ⟨hs, ho, rfl, id⟩
  have hi : s.inited = true := (Bool.not_eq_false' ..).mp hs
  unfold processSteps
  split
  · exact .completed hclean none (.processBypass size ‹_›)
  · have hb : s.bypass = false := Bool.eq_false_iff.mpr ‹_›
    split
    · exact .completed hclean none (.processSilent size hb ‹_›)
    · exact .completed hclean none (.processBlock size hi hb (Bool.eq_false_iff.mpr ‹_›))

theorem execPrepare_judged (hf : s.fault = false) : Judged s .prepare (execPrepare s) := by
  refine .unlessFaulted hf <| .sequence rfl fun hs => ?_
  have hi : s.inited = true := (Bool.not_eq_false' ..).mp hs
  rcases prepare_decision s with hw | hw | hw
  · rw [prepareKind_of_fullWanted hw]
    dsimp only
    split
    · exact .completed ⟨hs, rfl, rfl, fun h => not_partitionMisfit_of_some ‹_› h.2⟩ _ (.prepareFull _ hi ‹_›)
    · exact .raised (.arena hs rfl rfl ⟨hw, partitionMisfit_of_none ‹_›⟩)
  · have hk := prepareKind_of_lightWanted hw
    rw [hk]
    exact .completed ⟨hs, rfl, rfl, fun h => not_fullWanted_of_lightWanted hw h.1⟩ _ (.prepareLight hi hk)
  · have hk := prepareKind_of_stable hw
    rw [hk]
    exact .completed ⟨hs, rfl, rfl, fun h => not_fullWanted_of_stable hw h.1⟩ _ (.prepareNone hi hk)

/-- Every command follows its tables (60_exceptions.md R188). -/
theorem exec_judged (hf : s.fault = false) (i : Instr) : Judged s i (exec i s) := by
  cases i with
  | nop => exact .unlessFaulted hf (.completed ⟨rfl, rfl, rfl, id⟩ none .nop)
  | csrr addr => exact execCsrr_judged hf addr
  | arena which size => exact execArena_judged hf which size
  | tblinit sr => exact execTblinit_judged hf sr
  | init sr => exact execInit_judged hf sr
  | pset index value => exact execPset_judged hf index value
  | setmode mode => exact execSetmode_judged hf mode
  | setqual quality =>
    exact .unlessFaulted hf (.operand rfl rfl fun hq ho =>
      .completed ⟨rfl, ho, rfl, id⟩ none (.setqual quality (not_lt.mp hq)))
  | setsil flag => exact .unlessFaulted hf (.completed ⟨rfl, rfl, rfl, id⟩ none (.setsil flag))
  | setbyp flag => exact .unlessFaulted hf (.completed ⟨rfl, rfl, rfl, id⟩ none (.setbyp flag))
  | rstbuf => exact .unlessFaulted hf (.completed ⟨rfl, rfl, rfl, id⟩ none .rstbuf)
  | prepare => exact execPrepare_judged hf
  | process size => exact execProcess_judged hf size
  | framew index left right => exact execFramew_judged hf index left right
  | framer index => exact execFramer_judged hf index
  | peek space addr => exact execPeek_judged hf space addr
  | rbinit inst space enc base size => exact execRbinit_judged hf inst space enc base size
  | rbwf inst allow count stride src => exact execRbwf_judged hf inst allow count stride src
  | rbrd inst offset frac =>
    exact .unlessFaulted hf (.sequence rfl fun hs => .unbound hs rfl rfl fun _ hu =>
      .completed ⟨hs, rfl, hu, id⟩ _ (.rbrd inst offset frac))
  | svfrst inst => exact .unlessFaulted hf (.sequence rfl fun hs => .completed ⟨hs, rfl, rfl, id⟩ none (.svfrst inst))
  | svfset inst f q =>
    exact .unlessFaulted hf (.sequence rfl fun hs => .completed ⟨hs, rfl, rfl, id⟩ none (.svfset inst f q))
  | svfstep inst x =>
    exact .unlessFaulted hf (.sequence rfl fun hs => .completed ⟨hs, rfl, rfl, id⟩ none (.svfstep inst x))
  | lim x => exact .unlessFaulted hf (.sequence rfl fun hs => .completed ⟨hs, rfl, rfl, id⟩ _ (.lim x))
  | xfade dw dry wet =>
    exact .unlessFaulted hf (.sequence rfl fun hs => .operand hs rfl fun _ ho =>
      .completed ⟨hs, ho, rfl, id⟩ _ (.xfade dw dry wet))

/-- A command that raises a fault does the five writes of 60_exceptions.md R186. -/
theorem exec_of_raises (hf : s.fault = false) {i : Instr} {c : Cause} {v : Nat} (h : Raises s i c v) :
    exec i s = .next (s.faulted c v (encode i)) :=
  (exec_judged hf i).eq_raise h

/-- A command that passes its checks completes: it is counted and leaves the fault record as it was. -/
theorem exec_of_noFault (hf : s.fault = false) {i : Instr} (h : noFault s i) :
    ∃ t, exec i s = .next t ∧ t.fault = false ∧ t.cmdcnt = s.cmdcnt + 1 ∧ t.faultCause = s.faultCause ∧
      t.faultInfo = s.faultInfo ∧ t.faultCmdLo = s.faultCmdLo ∧ t.faultCmdHi = s.faultCmdHi := by
  obtain ⟨r, u, effect, hrun⟩ := (exec_judged hf i).eq_complete h
  obtain ⟨hfault, hcause, hinfo, hlo, hhi, hcount, -⟩ := effect.bookkeeping_eq
  exact ⟨_, hrun, hfault.trans hf, congrArg (· + 1) hcount, hcause, hinfo, hlo, hhi⟩

end

/-- Settles O22: an illegal word by `step_illegal`, a legal one by its tables (`exec_judged`). -/
theorem theFirstFaultIsRaised : Obligations.TheFirstFaultIsRaised := by
  unfold Obligations.TheFirstFaultIsRaised
  refine ⟨fun s w hf => ⟨step_illegal hf, fun i hd => ⟨fun c v h => ?_, fun h => ?_⟩⟩, fun _ _ _ _ _ _ => Raises.unique⟩
  · rw [step_present_of_decode s hd, exec_of_raises hf h, encode_of_decode hd]
  · rw [step_present_of_decode s hd]
    exact exec_of_noFault hf h

/-- Settles O23: the five writes of `exec_of_raises`, with the code of each cause (60_exceptions.md R180). -/
theorem takingAFaultWritesFiveRegisters : Obligations.TakingAFaultWritesFiveRegisters := by
  unfold Obligations.TakingAFaultWritesFiveRegisters
  intro s i c v hf h
  rw [exec_of_raises hf h]
  cases c <;> rfl

end Sys2Proof.Machine
end

section
/-! PROOFS. The faulted state (60_exceptions.md R187): it answers a `CSRR` of a mapped register, discards every other word, and only
a reset event leaves it. -/

namespace Sys2Proof.Machine

/-- The words of `CSRR` are those that match its row (30_encoding.md R65). -/
theorem decode_eq_csrr_iff {w : Cmd} {addr : BitVec 16} :
    decode w = .ok (.csrr addr) ↔ w &&& 0xFFFF0000FFFFFFFF = 0x0100000000000000 ∧ bField w = addr := by
  constructor
  · intro h
    refine ⟨matches_rowOf h, ?_⟩
    rw [← encode_of_decode h, encode, bField_packWord]
  · rintro ⟨hw, rfl⟩
    obtain ⟨ho, ha, -, hc⟩ := rowFields_of_and 0x01 0xFF 0 0xFFFFFFFF hw
    exact decode_eq_ok_iff.mpr
      (packWord_of_fields ho (eq_zero_of_and_allOnes ha) rfl (eq_zero_of_and_allOnes hc))

section

variable {s t : State} (hf : s.fault = true)

include hf

theorem exec_csrr_of_fault {addr : BitVec 16} {v : Word} (hv : s.reg? addr.toNat = some v) :
    exec (.csrr addr) s = .next { s with resp := some v } := by
  show execCsrr addr s = _
  rw [execCsrr, hv]
  exact if_pos hf

/-- Every other command is discarded. -/
theorem exec_of_fault {i : Instr} (hi : ∀ addr, i = .csrr addr → mappedAddress addr.toNat ≠ true) :
    exec i s = .next { s with resp := none } := by
  cases i with
  | csrr addr =>
    show execCsrr addr s = _
    rw [execCsrr, reg?_eq_none (hi addr rfl)]
    exact unlessFaulted_of_fault hf _
  | _ => exact unlessFaulted_of_fault hf _

theorem step_mapped_csrr_of_fault {w : Cmd} (hw : w &&& 0xFFFF0000FFFFFFFF = 0x0100000000000000)
    (hm : mappedAddress (bField w).toNat = true) :
    ∃ v, s.reg? (bField w).toNat = some v ∧ step (s.present w) = .next { s with resp := some v } := by
  obtain ⟨v, hv⟩ := Option.isSome_iff_exists.mp ((reg?_isSome_iff s _).mpr hm)
  refine ⟨v, hv, ?_⟩
  rw [step_present_of_decode s (decode_eq_csrr_iff.mpr ⟨hw, rfl⟩), exec_csrr_of_fault hf hv]

theorem step_discards_of_fault {w : Cmd}
    (hw : ¬(w &&& 0xFFFF0000FFFFFFFF = 0x0100000000000000 ∧ mappedAddress (bField w).toNat = true)) :
    step (s.present w) = .next { s with resp := none } := by
  cases hl : legalWord w with
  | false =>
    rw [step_present_of_illegal s hl]
    exact unlessFaulted_of_fault hf _
  | true =>
    obtain ⟨i, hd⟩ := exists_decode_iff.mpr hl
    rw [step_present_of_decode s hd]
    refine exec_of_fault hf ?_
    rintro addr rfl hm
    obtain ⟨hrow, rfl⟩ := decode_eq_csrr_iff.mp hd
    exact hw ⟨hrow, hm⟩

/-- Only a reset event leaves the faulted state. -/
theorem reset_of_fault_cleared (h : step s = .next t) (ht : t.fault = false) : ∃ rest, s.inputs = .reset :: rest := by
  have hkept : t.fault ≠ true := Bool.eq_false_iff.mp ht
  rcases step_cases h with ⟨-, h⟩ | ⟨rest, hin, -⟩ | ⟨w, rest, i, -, -, h⟩ | ⟨w, rest, e, -, -, h⟩
  · cases h
    exact absurd hf hkept
  · exact ⟨rest, hin⟩
  · cases exec_ends h.symm with
    | discarded => exact absurd hf hkept
    | faulted => exact absurd rfl hkept
    | completed hclear => exact absurd (hclear.symm.trans hf) Bool.false_ne_true
  · rcases unlessFaulted_cases h.symm with ⟨-, h⟩ | ⟨hclear, -⟩
    · cases h
      exact absurd hf hkept
    · exact absurd (hclear.symm.trans hf) Bool.false_ne_true

end

/-- Settles O24: the two answers to a word, and the one event that leaves the faulted state. -/
theorem theFaultedStateIsSticky : Obligations.TheFaultedStateIsSticky := by
  unfold Obligations.TheFaultedStateIsSticky
  exact fun s hf => ⟨fun _ => step_mapped_csrr_of_fault hf, fun _ => step_discards_of_fault hf,
    fun _ => reset_of_fault_cleared hf⟩

end Sys2Proof.Machine
end
